-- ==== Sys2Proof/Word.lean ====
section
/-! DEFINITION. The word types of the SFCB: a bus byte, a request word, a clock rate.
R51: every bus word is 8 bits. R70: a request is one 16-bit word. R28: a clock rate is 32 bits, unsigned. -/

namespace Sys2Proof

/-- One bus word, one staging slot, one result-space location (R6 `WORD_BITS` = 8, R51, R56). -/
abbrev Byte := BitVec 8

/-- A request word, CLASS in bits 15:8 and CODE in bits 7:0 (R70). -/
abbrev ReqWord := BitVec 16

/-- A bus clock rate in Hz, the width of `CLK_ACTUAL` (R28). -/
abbrev Hz := BitVec 32

end Sys2Proof
end

