-- ==== Sys2Proof/Machine/Types.lean ====
section
/-! DEFINITION. The finite types of the machine: pins and their levels, phases, the two state bits, the bus format,
trace events, the environment's answers, command rows and micro-ops. -/

namespace Sys2Proof.Machine

/-- The six logical pins (R6, R25 to R27; 90_conflicts.md C1). -/
inductive Pin where
  | mosi | sck | miso | hold | wp | cs
deriving DecidableEq, Repr

/-- Level of a manually driven pin (R25, R26): `undriven` until INIT makes it an output. -/
inductive Level where
  | undriven | low | high
deriving DecidableEq, Repr

/-- `CFG_STATE` (R21). -/
inductive CfgState where
  | uninit | ready
deriving DecidableEq, Repr

/-- `SEQ_STATE` (R22). -/
inductive SeqState where
  | idle | active
deriving DecidableEq, Repr

/-- The phase of a transaction that a transport fault names (R8, R35). -/
inductive Phase where
  | write | read
deriving DecidableEq, Repr

/-- A clock polarity or phase setting (R27). -/
inductive ClkLevel where
  | low | high
deriving DecidableEq, Repr

/-- The order of bits within a bus word (R27, R51). -/
inductive BitOrder where
  | msbFirst | lsbFirst
deriving DecidableEq, Repr

/-- `BUSFMT` (R27): `unconfigured` until INIT sets the four fields. -/
inductive BusFmt where
  | unconfigured
  | configured (bitsPerWord : Nat) (polarity phase : ClkLevel) (bitOrder : BitOrder)
deriving DecidableEq, Repr

/-- The platform calls that INIT's `CFG(...)` events record (R8, R140). -/
inductive CfgCall where
  /-- `configure(BUS, hz)` answered with the rate `actual`. -/
  | configure (hz actual : Hz)
  | setFormat
  | assignBusFunction (p : Pin)
  | configureAsOutput (ps : List Pin)
deriving DecidableEq, Repr

/-- The events of the bus event trace (R8). -/
inductive Event where
  | csl
  | csh
  | tx (b : Byte)
  | rx (b : Byte)
  | fault (p : Phase)
  /-- A blocking sleep of at least `us` microseconds completed. -/
  | dly (us : Nat)
  | pin (p : Pin) (lvl : Level)
  | cfg (c : CfgCall)
deriving DecidableEq, Repr

/-- What the Transport agent can answer (R103, R104, R140, R183). Never answering is the absence of an answer (R110). -/
inductive TransportAnswer where
  /-- A write phase completed. -/
  | writeOk
  /-- A write phase faulted after `k` bytes were clocked out (R103). -/
  | writeFault (k : Nat)
  /-- A read phase completed with the bytes `d`, in arrival order (R104). -/
  | readOk (d : List Byte)
  /-- A read phase faulted (R104). -/
  | readFault
  /-- `configure` returned the rate `actual` (R140). -/
  | rate (actual : Hz)
deriving DecidableEq, Repr

/-- One row of the command table (R73). -/
structure Descriptor where
  /-- First byte of the write phase. -/
  opcode : Byte
  /-- The dummy count `D`. -/
  dummies : Nat
  /-- The read length `n`. -/
  readLen : Nat
  /-- The staging slot; `none` for a command that reads nothing. -/
  slot : Option Nat
deriving DecidableEq, Repr

/-- The micro-ops of R100. `commit` commits the request that is running. -/
inductive MicroOp where
  | csl
  | wr (W : List Byte)
  | rd (n slot : Nat)
  | csh
  | dly (us : Nat)
  | cfg (hz : Hz)
  | fmt
  | pinfn (p : Pin)
  | outen (ps : List Pin)
  | set (p : Pin) (lvl : Level)
  | commit
deriving DecidableEq, Repr

end Sys2Proof.Machine
end

