-- ==== Sys2Proof/Machine/Params.lean ====
section
/-! DEFINITION. The parameters of R6 whose values the spec gives. -/

namespace Sys2Proof.Machine

/-- `CLK_TARGET_HZ`, the requested bus clock (R6, R14). -/
def clkTargetHz : Hz := 100000000

/-- `RESET_SETTLE_US`, the post-reset settle delay (R6, R14). -/
def resetSettleUs : Nat := 30

/-- `FILL`, the byte transmitted during a read phase (R6; D7). -/
def fill : Byte := 0x00

/-- `DUMMY`, the value of every dummy byte (R6, R77). -/
def dummy : Byte := 0x00

/-- `RESP_BYTES`, the size of the response buffer (R6). -/
def respBytes : Nat := 8

/-- `MAX_WRITE`, the longest write phase (R6). -/
def maxWrite : Nat := 5

/-- The number of staging bytes, `STG[0..14]` (R29). -/
def stgBytes : Nat := 15

/-- The format INIT sets on the bus: 8 bits, CPOL 0, CPHA 1, MSB first (R6, R27, R51). -/
def busFormat : BusFmt := .configured 8 .low .high .msbFirst

end Sys2Proof.Machine
end

