-- ==== Sys2Proof/Syntax.lean ====
section
/-! DEFINITION. The instruction set: one constructor per row of spec/opcode_table.json (R2: eight CMD requests, five SEQ requests).
R78: no request carries an operand, so every constructor is a constant. -/

namespace Sys2Proof

/-- The thirteen requests of R73 and R74. -/
inductive Instr where
  /-- CMD ENABLE_RESET, 0x0066 (R121). -/
  | cmdEnableReset
  /-- CMD RESET, 0x0099 (R122). -/
  | cmdReset
  /-- CMD RELEASE_PD_ID, 0x00AB (R123). -/
  | cmdReleasePdId
  /-- CMD READ_JEDEC_ID, 0x009F (R124). -/
  | cmdReadJedecId
  /-- CMD READ_UNIQUE_ID, 0x004B (R125). -/
  | cmdReadUniqueId
  /-- CMD READ_SR1, 0x0005 (R126). -/
  | cmdReadSr1
  /-- CMD READ_SR2, 0x0035 (R127). -/
  | cmdReadSr2
  /-- CMD READ_SR3, 0x0015 (R128). -/
  | cmdReadSr3
  /-- SEQ INIT, 0x0101 (R140). -/
  | seqInit
  /-- SEQ RESET_SEQ, 0x0102 (R142). -/
  | seqResetSeq
  /-- SEQ LOAD_DEVICE_INFO, 0x0103 (R143). -/
  | seqLoadDeviceInfo
  /-- SEQ IS_BUSY, 0x0104 (R145). -/
  | seqIsBusy
  /-- SEQ POST_RESET_TEST, 0x0105 (R147). -/
  | seqPostResetTest
deriving DecidableEq, Repr

end Sys2Proof
end

