-- ==== Sys2Proof/Machine/Operands.lean ====
section
/-! DEFINITION. What a request puts on the wire: the command table (R73), the sequence table (R74), write phases, windows
and transactions (R76, R77, R101). No request has an operand (R78); dummy bytes are the only operand-like data. -/

namespace Sys2Proof.Machine

/-- R73 row `ENABLE_RESET`. -/
def rowEnableReset : Descriptor := ⟨0x66, 0, 0, none⟩
/-- R73 row `RESET`. -/
def rowReset : Descriptor := ⟨0x99, 0, 0, none⟩
/-- R73 row `RELEASE_PD_ID`. -/
def rowReleasePdId : Descriptor := ⟨0xAB, 3, 1, some 0⟩
/-- R73 row `READ_JEDEC_ID`. -/
def rowReadJedecId : Descriptor := ⟨0x9F, 0, 3, some 1⟩
/-- R73 row `READ_UNIQUE_ID`. -/
def rowReadUniqueId : Descriptor := ⟨0x4B, 4, 8, some 4⟩
/-- R73 row `READ_SR1`. -/
def rowReadSr1 : Descriptor := ⟨0x05, 0, 1, some 12⟩
/-- R73 row `READ_SR2`. -/
def rowReadSr2 : Descriptor := ⟨0x35, 0, 1, some 13⟩
/-- R73 row `READ_SR3`. -/
def rowReadSr3 : Descriptor := ⟨0x15, 0, 1, some 14⟩

/-- The transactions of each request, in order (R73, R74). -/
def transactions : Instr → List Descriptor
  | .cmdEnableReset => [rowEnableReset]
  | .cmdReset => [rowReset]
  | .cmdReleasePdId => [rowReleasePdId]
  | .cmdReadJedecId => [rowReadJedecId]
  | .cmdReadUniqueId => [rowReadUniqueId]
  | .cmdReadSr1 => [rowReadSr1]
  | .cmdReadSr2 => [rowReadSr2]
  | .cmdReadSr3 => [rowReadSr3]
  | .seqInit => []
  | .seqResetSeq => [rowEnableReset, rowReset]
  | .seqLoadDeviceInfo =>
      [rowReleasePdId, rowReadJedecId, rowReadUniqueId, rowReadSr1, rowReadSr2, rowReadSr3]
  | .seqIsBusy => [rowReadSr1]
  | .seqPostResetTest => [rowReleasePdId, rowReadJedecId, rowReadSr1]

/-- The write phase `[opcode] ++ rep(D, DUMMY)` (R73, R76). -/
def Descriptor.writePhase (d : Descriptor) : List Byte :=
  d.opcode :: List.replicate d.dummies dummy

/-- Every byte the block drives on data-out in the command's window: the write phase, then `FILL` once per byte read (R76). -/
def Descriptor.dataOut (d : Descriptor) : List Byte :=
  d.writePhase ++ List.replicate d.readLen fill

/-- `TXN(W, n, slot)` (R101). -/
def txn (W : List Byte) (n slot : Nat) : List MicroOp :=
  [.csl, .wr W] ++ (if n > 0 then [.rd n slot] else []) ++ [.csh]

/-- `TXN_c`, the transaction of one command (R101; 42_sequences.md's abbreviation). A row without a slot reads nothing. -/
def Descriptor.txn (d : Descriptor) : List MicroOp :=
  Machine.txn d.writePhase d.readLen (d.slot.getD 0)

end Sys2Proof.Machine
end

