-- ==== Sys2Proof/WellFormed.lean ====
section
/-! DEFINITION. Well-formedness of command rows, micro-ops, micro-programs and requests, as Boolean checks. -/

namespace Sys2Proof
open Machine

/-- A command row fits the block (R6, R29, R73): the write phase is at most `MAX_WRITE` bytes, the read at most `RESP_BYTES`,
a slot is given exactly when something is read, and the read fits the staging buffer. -/
def Machine.Descriptor.wellFormed (d : Descriptor) : Bool :=
  d.writePhase.length ≤ maxWrite && d.readLen ≤ respBytes && (d.slot.isSome == decide (d.readLen > 0))
    && d.slot.getD 0 + d.readLen ≤ stgBytes

/-- The pins the block drives by hand (R25, R26). -/
def Machine.Pin.manual : Pin → Bool
  | .cs | .hold | .wp => true
  | .mosi | .sck | .miso => false

/-- One micro-op has legal operands: `W` is never empty (R101) nor longer than `MAX_WRITE`, a read phase has `n >= 1` (R104)
and fits its buffers, bus functions go to bus pins (R27), and only manual pins are outputs or set, to `LOW` or `HIGH` (R12). -/
def Machine.MicroOp.wellFormed : MicroOp → Bool
  | .wr W => !W.isEmpty && W.length ≤ maxWrite
  | .rd n slot => 1 ≤ n && n ≤ respBytes && slot + n ≤ stgBytes
  | .dly us => us == resetSettleUs
  | .pinfn p => !p.manual
  | .outen ps => ps.all Pin.manual
  | .set p lvl => p.manual && lvl != .undriven
  | .csl | .csh | .cfg _ | .fmt | .commit => true

/-- A micro-program is well formed (R23, R100): at most 25 micro-ops, the last is `COMMIT` and no other is, each has legal operands. -/
def Machine.programWellFormed (ops : List MicroOp) : Bool :=
  ops.length ≤ 25 && ops.getLast? == some .commit && !ops.dropLast.contains .commit && ops.all MicroOp.wellFormed

/-- A request is well formed when every row it sends is. Requests have no fields (R78), so nothing else can be wrong with one. -/
def Instr.wellFormed (i : Instr) : Bool := (transactions i).all Descriptor.wellFormed

end Sys2Proof
end

