-- ==== Sys2Proof/Decode.lean ====
section
/-! DEFINITION. Decoding a request word (R70 to R75, R80, R81), total on all 65 536 words, and the encoder. -/

namespace Sys2Proof

/-- Why a word is an illegal request: the three groups of R80. -/
inductive IllegalReason where
  /-- CLASS 0x02 to 0xFF (R71). -/
  | reservedClass (cls : Byte)
  /-- A CMD word whose CODE is not one of the eight opcodes. -/
  | unusedCmdCode (code : Byte)
  /-- A SEQ word whose CODE is 0x00 or 0x06 to 0xFF. -/
  | unusedSeqCode (code : Byte)
deriving DecidableEq, Repr

/-- The result of decoding: `Request | Illegal` (R75). -/
inductive Decoded where
  | request (i : Instr)
  | illegal (why : IllegalReason)
deriving DecidableEq, Repr

/-- `CLASS = w[15:8]` (R70). -/
def reqClass (w : ReqWord) : Byte := w.extractLsb' 8 8

/-- `CODE = w[7:0]` (R70). -/
def reqCode (w : ReqWord) : Byte := w.extractLsb' 0 8

/-- The CMD requests by CODE, which is the wire opcode (R72, R73). -/
def decodeCmd (code : Byte) : Decoded :=
  if code = 0x66 then .request .cmdEnableReset
  else if code = 0x99 then .request .cmdReset
  else if code = 0xAB then .request .cmdReleasePdId
  else if code = 0x9F then .request .cmdReadJedecId
  else if code = 0x4B then .request .cmdReadUniqueId
  else if code = 0x05 then .request .cmdReadSr1
  else if code = 0x35 then .request .cmdReadSr2
  else if code = 0x15 then .request .cmdReadSr3
  else .illegal (.unusedCmdCode code)

/-- The SEQ requests by CODE, a sequence number (R72, R74). -/
def decodeSeq (code : Byte) : Decoded :=
  if code = 0x01 then .request .seqInit
  else if code = 0x02 then .request .seqResetSeq
  else if code = 0x03 then .request .seqLoadDeviceInfo
  else if code = 0x04 then .request .seqIsBusy
  else if code = 0x05 then .request .seqPostResetTest
  else .illegal (.unusedSeqCode code)

/-- `decode(w)` (R75). -/
def decode (w : ReqWord) : Decoded :=
  if reqClass w = 0x00 then decodeCmd (reqCode w)
  else if reqClass w = 0x01 then decodeSeq (reqCode w)
  else .illegal (.reservedClass (reqClass w))

/-- The CLASS byte of a request: 0x00 is CMD, 0x01 is SEQ (R71). -/
def encodeClass : Instr → Byte
  | .cmdEnableReset | .cmdReset | .cmdReleasePdId | .cmdReadJedecId | .cmdReadUniqueId
  | .cmdReadSr1 | .cmdReadSr2 | .cmdReadSr3 => 0x00
  | .seqInit | .seqResetSeq | .seqLoadDeviceInfo | .seqIsBusy | .seqPostResetTest => 0x01

/-- The CODE byte of a request (R72 to R74). -/
def encodeCode : Instr → Byte
  | .cmdEnableReset => 0x66
  | .cmdReset => 0x99
  | .cmdReleasePdId => 0xAB
  | .cmdReadJedecId => 0x9F
  | .cmdReadUniqueId => 0x4B
  | .cmdReadSr1 => 0x05
  | .cmdReadSr2 => 0x35
  | .cmdReadSr3 => 0x15
  | .seqInit => 0x01
  | .seqResetSeq => 0x02
  | .seqLoadDeviceInfo => 0x03
  | .seqIsBusy => 0x04
  | .seqPostResetTest => 0x05

/-- The request word of an instruction: CLASS then CODE (R70). -/
def encode (i : Instr) : ReqWord := encodeClass i ++ encodeCode i

/-- The instruction the decoder reads from a table word of `nbits` bits; every request is one 16-bit word (R70), so a longer or
larger word is no request. A word has no byte order: DESIGN CHOICE, log entry 13. -/
def decodeTableWord (nbits w : Nat) : Option Instr :=
  if nbits ≤ 16 ∧ w < 2 ^ 16 then
    match decode (BitVec.ofNat 16 w) with
    | .request i => some i
    | .illegal _ => none
  else none

/-- The mnemonic part of R82's textual form. -/
def Instr.mnemonic : Instr → String
  | .cmdEnableReset => "ENABLE_RESET"
  | .cmdReset => "RESET"
  | .cmdReleasePdId => "RELEASE_PD_ID"
  | .cmdReadJedecId => "READ_JEDEC_ID"
  | .cmdReadUniqueId => "READ_UNIQUE_ID"
  | .cmdReadSr1 => "READ_SR1"
  | .cmdReadSr2 => "READ_SR2"
  | .cmdReadSr3 => "READ_SR3"
  | .seqInit => "INIT"
  | .seqResetSeq => "RESET_SEQ"
  | .seqLoadDeviceInfo => "LOAD_DEVICE_INFO"
  | .seqIsBusy => "IS_BUSY"
  | .seqPostResetTest => "POST_RESET_TEST"

/-- The textual form of a request (R82): `CMD <mnemonic>` or `SEQ <mnemonic>`. -/
def Instr.text (i : Instr) : String :=
  (if encodeClass i = 0x00 then "CMD " else "SEQ ") ++ i.mnemonic

end Sys2Proof
end

