-- ==== Sys2Proof/Config.lean ====
section
/-! DEFINITION. What the spec leaves OPEN to the platform (R6, R203) and the free values it calls unspecified.
Every constant here is opaque: nothing in Lean can evaluate it, so a theorem about it holds for every value. DESIGN CHOICE, log entry
10 (the parameters); log entries 3 and 4 (the free values). -/

namespace Sys2Proof.Config
open Sys2Proof.Machine

/-- `EXP_MFR`, the expected 0xAB response byte (R6, R40, R203; D19, OPEN). -/
opaque expMfr : Byte

/-- `EXP_MEMTYPE`, the expected JEDEC memory type byte (R6, R40, R203; D19, OPEN). -/
opaque expMemtype : Byte

/-- `EXP_CAP`, the expected JEDEC capacity byte (R6, R40, R203; D19, OPEN). -/
opaque expCap : Byte

/-- `PIN_MOSI` .. `PIN_CS`, the platform's identifier of each pin role (R6, R203; D21, OPEN). The trace names pins by role. -/
opaque pinId : Pin → Nat

/-- `BUS`, the opaque handle of the one bus (R6, R203; D21, OPEN). Every bus call is a call on it, so events do not repeat it. -/
opaque bus : Nat

/-- `T_CSH_MIN`, the minimum chip-select high time between windows (D29, I18, OPEN). No rule uses it, and the model has no time. -/
opaque tCshMin : Nat

/-- The unspecified content of staging byte `k` after an acceptance (R29, I12); the first argument is `State.freeCount`. Log entry 3. -/
opaque freeStgByte : Nat → Nat → Byte

/-- The unspecified content of `STG_CLK` after an acceptance (R29); the argument is `State.freeCount`. Log entry 3. -/
opaque freeStgClk : Nat → Hz

/-- Whether an undriven pin that `OUTEN` makes an output is driven high (R140, R215, I5); the first argument is
`State.freeCount`. Log entry 4. -/
opaque freePinHigh : Nat → Pin → Bool

end Sys2Proof.Config
end

