-- ==== Sys2Proof/Machine/State.lean ====
section
/-! DEFINITION. The architectural state (R20 to R35 and the event trace of R8), the inputs the environment supplies, the
reset state (R43) and the reasons a step can stop. -/

namespace Sys2Proof.Machine

/-- The state of the block (R20), followed by the model's own fields: the environment's pending inputs and the free-value counter. -/
structure State where
  /-- `CFG_STATE` (R21). -/
  cfgState : CfgState
  /-- `SEQ_STATE` (R22). -/
  seqState : SeqState
  /-- `CUR_REQ` (R22). -/
  curReq : ReqWord
  /-- `UPC`, the index of the next micro-op (R23). -/
  upc : BitVec 5
  /-- `TXN_IDX`, the ordinal of the current transaction (R24). -/
  txnIdx : BitVec 3
  /-- `CS`, the chip-select pin (R25). -/
  cs : Level
  /-- `HOLD` (R26). -/
  hold : Level
  /-- `WP` (R26). -/
  wp : Level
  /-- `BUSFMT` (R27). -/
  busFmt : BusFmt
  /-- `CLK_ACTUAL` (R28). -/
  clkActual : Hz
  /-- `STG[0..14]` (R29). -/
  stg : Vector Byte 15
  /-- `STG_SR1V` (R29). -/
  stgSr1v : Bool
  /-- `STG_CLK` (R29). -/
  stgClk : Hz
  /-- `DEVINFO[0..15]` (R30). -/
  devInfo : Vector Byte 16
  /-- `RESP[0..7]` (R31). -/
  resp : Vector Byte 8
  /-- `RESP_LEN` (R31). -/
  respLen : BitVec 4
  /-- `BUSY_FLAG` (R32). -/
  busyFlag : Bool
  /-- `PRT_PASS` (R33). -/
  prtPass : Bool
  /-- `RESULT_VALID` (R34). -/
  resultValid : Bool
  /-- `ERR_CODE` (R35). -/
  errCode : Byte
  /-- `ERR_TXN` (R35). -/
  errTxn : Byte
  /-- `ERR_PHASE` (R35). -/
  errPhase : Byte
  /-- The bus event trace, oldest event first (R8, R20). -/
  trace : List Event
  /-- Model: the request words the Host has yet to submit, next first (R171). DESIGN CHOICE, log entry 2. -/
  submissions : List ReqWord
  /-- Model: the Transport's answers to the phases to come, next first (R7, R9, R103, R104, R140). DESIGN CHOICE, log entry 1. -/
  transport : List TransportAnswer
  /-- Model: the elapsed microseconds the Timer reports for the sleeps to come, next first (R111). DESIGN CHOICE, log entry 1. -/
  timer : List Nat
  /-- Model: counts the free values drawn so far. DESIGN CHOICE, log entry 5. -/
  freeCount : Nat
deriving DecidableEq, Repr

/-- Why a Host access stops. No instruction of the block stops with a fault (R180: "no fatal state"). -/
inductive Fault where
  /-- Raised by a Host read at an offset above 0xFF, which "is not an RS address" (R57). Safe: the spec gives the read no step. -/
  | outsideResultSpace (offset : Nat)
deriving DecidableEq, Repr

/-- Why a request has no meaning in the model. -/
inductive Refusal where
  /-- Raised by an arm of exec whose instruction has no meaning yet; no arm does. Safe: nothing can be proved of such a step. -/
  | notModelled (mnemonic : String)
deriving DecidableEq, Repr

/-- The state right after block reset (R43, R200). `STG[0..14]` and `STG_CLK` are unspecified there: zero is a DESIGN CHOICE,
log entry 3. The model's own input queues are empty and its counter is zero: DESIGN CHOICE, log entries 1, 2 and 5. -/
def State.reset : State where
  cfgState := .uninit
  seqState := .idle
  curReq := 0x0000
  upc := 0
  txnIdx := 0
  cs := .undriven
  hold := .undriven
  wp := .undriven
  busFmt := .unconfigured
  clkActual := 0
  stg := #v[0, 0, 0, 0, 0, 0, 0, 0, 0, 0, 0, 0, 0, 0, 0]
  stgSr1v := false
  stgClk := 0
  devInfo := #v[0, 0, 0, 0, 0, 0, 0, 0, 0, 0, 0, 0, 0, 0, 0, 0]
  resp := #v[0, 0, 0, 0, 0, 0, 0, 0]
  respLen := 0
  busyFlag := false
  prtPass := false
  resultValid := false
  errCode := 0x00
  errTxn := 0
  errPhase := 0
  trace := []
  submissions := []
  transport := []
  timer := []
  freeCount := 0

end Sys2Proof.Machine
end

