-- ==== Sys2Proof/Machine/Flags.lean ====
section
/-! DEFINITION. The flags: the busy bit, the FLAGS byte and the POST_RESET_TEST comparison. R42: there is no other flag. -/

namespace Sys2Proof.Machine

/-- `SR1.BUSY`, bit 0 of a Status Register 1 byte, mask 0x01 (R129). -/
def busyBit (sr1 : Byte) : Bool := sr1.getLsbD 0

/-- The FLAGS byte (R38): bit 0 BUSY_FLAG, 1 PRT_PASS, 2 RESULT_VALID, 3 READY, 4 ACTIVE, 7:5 reserved and 0. -/
def flagsByte (s : State) : Byte :=
  0#3 ++ BitVec.ofBool (s.seqState == .active) ++ BitVec.ofBool (s.cfgState == .ready) ++ BitVec.ofBool s.resultValid
    ++ BitVec.ofBool s.prtPass ++ BitVec.ofBool s.busyFlag

/-- The comparison of POST_RESET_TEST (R147): the 0xAB byte, the JEDEC memory type and capacity, and a clear busy bit.
The device-ID check is omitted (90_conflicts.md C3). -/
def identityMatches (mfr memType cap sr1 : Byte) : Bool :=
  mfr == Config.expMfr && memType == Config.expMemtype && cap == Config.expCap && !busyBit sr1

end Sys2Proof.Machine
end

