-- ==== Sys2Proof/Machine/Ops.lean ====
section
/-! DEFINITION. The shared operations: pins and trace, the staging buffer, Host reads of the result space, acceptance and
rejection, abort (the block's one exception entry; R182: there is no return from it), commit, the micro-ops and the run of a
micro-program. -/

namespace Sys2Proof.Machine

/-! ### Pins and trace -/

/-- `emit e` for each of `es` in order (R12, R62). -/
def State.emit (es : List Event) (s : State) : State := { s with trace := s.trace ++ es }

/-- Drives a manual pin (R12 `SetPin`). The block never drives the bus-function pins (R27, R107). -/
def State.setLevel (p : Pin) (lvl : Level) (s : State) : State :=
  match p with
  | .cs => { s with cs := lvl }
  | .hold => { s with hold := lvl }
  | .wp => { s with wp := lvl }
  | .mosi | .sck | .miso => s

/-- The driven level of a manual pin; a bus-function pin is never driven by the block (R27). -/
def State.level (p : Pin) (s : State) : Level :=
  match p with
  | .cs => s.cs
  | .hold => s.hold
  | .wp => s.wp
  | .mosi | .sck | .miso => .undriven

/-- `R[UPC] <- R[UPC] + 1` (R23). -/
def State.advance (s : State) : State := { s with upc := s.upc + 1 }

/-! ### Staging -/

/-- `STG[k]` (R29). -/
def State.stgAt (s : State) (k : Nat) : Byte := s.stg[k]?.getD 0

/-- `STG[slot + i] <- d[i]` for every `i` (R53, R104). -/
def stageBytes (stg : Vector Byte 15) (slot : Nat) : List Byte → Vector Byte 15
  | [] => stg
  | b :: d => stageBytes (stg.setIfInBounds slot b) (slot + 1) d

/-- The staging buffer an acceptance leaves: every byte unspecified until the request writes it (R29, I12). Log entry 3. -/
def freshStg (n : Nat) : Vector Byte 15 :=
  let f := Config.freeStgByte n
  #v[f 0, f 1, f 2, f 3, f 4, f 5, f 6, f 7, f 8, f 9, f 10, f 11, f 12, f 13, f 14]

/-! ### The result space (R36) -/

/-- The byte at RS offset `a` for `a` from 0x00 to 0xFF (R36), a view of the result registers: DEDUCED, log entry 12. Reserved offsets
read 0x00. -/
def State.rsByte (s : State) (a : Nat) : Byte :=
  if a < 0x10 then s.devInfo[a]?.getD 0
  else if a < 0x18 then s.resp[a - 0x10]?.getD 0
  else if a = 0x18 then s.respLen.setWidth 8
  else if a = 0x19 then flagsByte s
  else if a = 0x1A then s.errCode
  else if a = 0x1B then s.errTxn
  else if a = 0x1C then s.errPhase
  else if a < 0x20 then 0x00
  else if a = 0x20 then s.clkActual.extractLsb' 0 8
  else if a = 0x21 then s.clkActual.extractLsb' 8 8
  else if a = 0x22 then s.clkActual.extractLsb' 16 8
  else if a = 0x23 then s.clkActual.extractLsb' 24 8
  else 0x00

/-- One Host read, `MemRead(addr, 1)` (R37). An offset above 0xFF is no RS address (R57): DEDUCED, log entry 16. -/
def State.hostRead (s : State) (a : Nat) : Except Fault Byte :=
  if a < 0x100 then .ok (s.rsByte a) else .error (.outsideResultSpace a)

/-- `MemRead(addr, n)` (R57): independent single-byte reads at `addr`, `addr+1`, ..., the `k`-th taken in the `k`-th state of
`ss`. While IDLE all of them are one state; during ACTIVE a commit may fall between two of them (I19). -/
def memRead : List State → Nat → Except Fault (List Byte)
  | [], _ => .ok []
  | s :: ss, addr => do
    let b ← s.hostRead addr
    let bs ← memRead ss (addr + 1)
    return b :: bs

/-! ### Submission (R171 to R174) -/

/-- `ILLEGAL_REQUEST` (R170). -/
def errIllegalRequest : Byte := 0x02
/-- `NOT_INITIALIZED` (R170). -/
def errNotInitialized : Byte := 0x03
/-- `TRANSPORT_FAULT` (R170). -/
def errTransportFault : Byte := 0x01

/-- The request word of SEQ INIT, the one request accepted while UNINIT (R172, R174). -/
def initWord : ReqWord := 0x0101

/-- `accept(w)` (R171). It also leaves the staging buffer and `STG_CLK` unspecified (R29). -/
def accept (w : ReqWord) (s : State) : State :=
  { s with
    curReq := w, seqState := .active, upc := 0, txnIdx := 0, stgSr1v := false, resultValid := false
    stg := freshStg s.freeCount, stgClk := Config.freeStgClk s.freeCount, freeCount := s.freeCount + 1 }

/-- `reject(code)` (R173, R174). -/
def reject (code : Byte) (s : State) : State :=
  { s with errCode := code, errTxn := 0, errPhase := 0, resultValid := false }

/-- Checks 2 and 3 of R172, for a word that decodes to a request. -/
def present (w : ReqWord) (s : State) : State :=
  if s.cfgState = .uninit ∧ w ≠ initWord then reject errNotInitialized s else accept w s

/-! ### Abort (R176) -/

/-- The value of `ERR_PHASE` for a phase: 1 is WRITE and 2 is READ (R35, R170). -/
def phaseCode : Phase → Byte
  | .write => 1
  | .read => 2

/-- `abort(txn, phase)` with `txn = R[TXN_IDX]`, in the same step as the faulting micro-op (R103, R104, R176). `UPC` and `TXN_IDX`
keep their values (R100, R105). Log entry 6. -/
def abort (phase : Phase) (s : State) : State :=
  { s with
    cs := .high, trace := s.trace ++ [.fault phase, .csh]
    errCode := errTransportFault, errTxn := s.txnIdx.setWidth 8, errPhase := phaseCode phase
    resultValid := false, seqState := .idle }

/-! ### Commit (R108) -/

/-- The result registers `RESP` and `RESP_LEN` for the response bytes `b`: the bytes, then 0x00 (R31). -/
def State.setResp (b : List Byte) (s : State) : State :=
  let f := fun k => b.getD k 0x00
  { s with resp := #v[f 0, f 1, f 2, f 3, f 4, f 5, f 6, f 7], respLen := BitVec.ofNat 4 b.length }

/-- The staged bytes `STG[slot .. slot+n-1]`. -/
def State.staged (s : State) (slot n : Nat) : List Byte := (List.range n).map fun k => s.stgAt (slot + k)

/-- What every `COMMIT` does after `commit_results(req)` (R108). `UPC` keeps its value (R100). Log entry 6. -/
def finishCommit (s : State) : State :=
  { s with
    busyFlag := if s.stgSr1v then busyBit (s.stgAt 12) else s.busyFlag
    resultValid := true, errCode := 0x00, errTxn := 0, errPhase := 0, seqState := .idle }

/-! ### The micro-ops (R100) -/

/-- `OUTEN(ps)` on the pins: an undriven pin gets an unspecified level, any other keeps its own (R140, R215). Log entry 4. -/
def driveOutputs (n : Nat) : List Pin → State → State
  | [], s => s
  | p :: ps, s =>
    driveOutputs n ps
      (if s.level p = .undriven then s.setLevel p (if Config.freePinHigh n p then .high else .low) else s)

/-- `WR(W)` (R103). An answer that is not one of the three outcomes of R103 is no answer to this phase: log entry 1. -/
def writePhase (W : List Byte) (s : State) : Option State :=
  match s.transport with
  | .writeOk :: rest => some ({ s with transport := rest }.emit (W.map .tx)).advance
  | .writeFault k :: rest =>
    if k ≤ W.length then some (abort .write ({ s with transport := rest }.emit ((W.take k).map .tx))) else none
  | _ => none

/-- `RD(n, slot)` (R104). A faulted read stages nothing and emits no `RX`. An answer that is not one of the outcomes of R104 is no
answer to this phase. -/
def readPhase (n slot : Nat) (s : State) : Option State :=
  match s.transport with
  | .readOk d :: rest =>
    if d.length = n then
      some ({ s with
        transport := rest, stg := stageBytes s.stg slot d, stgSr1v := s.stgSr1v || slot == 12 }.emit (d.map .rx)).advance
    else none
  | .readFault :: rest => some (abort .read { s with transport := rest })
  | _ => none

/-- One Block step at the micro-op `op` (R100), for a request whose `commit_results` is `commitResults`; `none` when the Block has no
step: an environment answer is missing (R110, R111; log entries 1 and 9) or a precondition fails (R102; log entry 11). -/
def microStep (commitResults : State → State) (op : MicroOp) (s : State) : Option State :=
  match op with
  | .csl => if s.cs = .high then some (({ s with cs := .low }.emit [.csl]).advance) else none
  | .wr W => writePhase W s
  | .rd n slot => readPhase n slot s
  | .csh => some (({ s with cs := .high, txnIdx := s.txnIdx + 1 }.emit [.csh]).advance)
  | .dly us =>
    match s.timer with
    | t :: rest => if us ≤ t then some (({ s with timer := rest }.emit [.dly us]).advance) else none
    | [] => none
  | .cfg hz =>
    match s.transport with
    | .rate a :: rest => some (({ s with transport := rest, stgClk := a }.emit [.cfg (.configure hz a)]).advance)
    | _ => none
  | .fmt => some (({ s with busFmt := busFormat }.emit [.cfg .setFormat]).advance)
  | .pinfn p => some ((s.emit [.cfg (.assignBusFunction p)]).advance)
  | .outen ps =>
    some (({ driveOutputs s.freeCount ps s with freeCount := s.freeCount + 1 }.emit [.cfg (.configureAsOutput ps)]).advance)
  | .set p lvl => some (((s.setLevel p lvl).emit [.pin p lvl]).advance)
  | .commit => some (finishCommit (commitResults s))

/-- Runs micro-ops until the request completes or the Block has no step (R100, R110). -/
def runOps (commitResults : State → State) : List MicroOp → State → State
  | [], s => s
  | op :: ops, s =>
    match microStep commitResults op s with
    | none => s
    | some s' =>
      match s'.seqState with
      | .idle => s'
      | .active => runOps commitResults ops s'

/-- A request the Host submits, with its micro-program and its `commit_results`: while ACTIVE the Host holds (R171); otherwise the
checks of R172, and an accepted request runs until it completes or holds: DESIGN CHOICE, log entry 8. -/
def runRequest (w : ReqWord) (program : List MicroOp) (commitResults : State → State) (s : State) : State :=
  match s.seqState with
  | .active => s
  | .idle =>
    match (present w s).seqState with
    | .idle => present w s
    | .active => runOps commitResults program (present w s)

end Sys2Proof.Machine
end

