-- ==== Sys2Proof/Machine/Commands.lean ====
section
/-! DEFINITION. The eight CMD requests (41_commands.md): for each its micro-program, its `commit_results` and its meaning.
R120: the micro-program is the row's transaction and `COMMIT`; the response is the row's `n` staged bytes. -/

namespace Sys2Proof.Machine

/-- `commit_results` of a CMD request with descriptor row `d` (R120). -/
def commitCmd (d : Descriptor) (s : State) : State := s.setResp (s.staged (d.slot.getD 0) d.readLen)

/-- CMD ENABLE_RESET (R121). -/
def programCmdEnableReset : List MicroOp := rowEnableReset.txn ++ [.commit]
/-- R121: `RESP[0..7] <- 0x00`, `RESP_LEN <- 0`. -/
def commitCmdEnableReset (s : State) : State := commitCmd rowEnableReset s
/-- The meaning of CMD ENABLE_RESET (R121). -/
def execCmdEnableReset (s : State) : Host.Outcome State Fault Refusal :=
  .next (runRequest 0x0066 programCmdEnableReset commitCmdEnableReset s)

/-- CMD RESET: `DLY(30)` stands before `COMMIT` (R122, R207). -/
def programCmdReset : List MicroOp := rowReset.txn ++ [.dly resetSettleUs, .commit]
/-- R122: `RESP[0..7] <- 0x00`, `RESP_LEN <- 0`. -/
def commitCmdReset (s : State) : State := commitCmd rowReset s
/-- The meaning of CMD RESET (R122). -/
def execCmdReset (s : State) : Host.Outcome State Fault Refusal :=
  .next (runRequest 0x0099 programCmdReset commitCmdReset s)

/-- CMD RELEASE_PD_ID (R123). -/
def programCmdReleasePdId : List MicroOp := rowReleasePdId.txn ++ [.commit]
/-- R123: `RESP[0] <- STG[0]`, the rest 0x00, `RESP_LEN <- 1`. -/
def commitCmdReleasePdId (s : State) : State := commitCmd rowReleasePdId s
/-- The meaning of CMD RELEASE_PD_ID (R123). -/
def execCmdReleasePdId (s : State) : Host.Outcome State Fault Refusal :=
  .next (runRequest 0x00AB programCmdReleasePdId commitCmdReleasePdId s)

/-- CMD READ_JEDEC_ID (R124). -/
def programCmdReadJedecId : List MicroOp := rowReadJedecId.txn ++ [.commit]
/-- R124: `RESP[0..2] <- STG[1..3]`, the rest 0x00, `RESP_LEN <- 3`. -/
def commitCmdReadJedecId (s : State) : State := commitCmd rowReadJedecId s
/-- The meaning of CMD READ_JEDEC_ID (R124). -/
def execCmdReadJedecId (s : State) : Host.Outcome State Fault Refusal :=
  .next (runRequest 0x009F programCmdReadJedecId commitCmdReadJedecId s)

/-- CMD READ_UNIQUE_ID (R125). -/
def programCmdReadUniqueId : List MicroOp := rowReadUniqueId.txn ++ [.commit]
/-- R125: `RESP[0..7] <- STG[4..11]`, `RESP_LEN <- 8`. -/
def commitCmdReadUniqueId (s : State) : State := commitCmd rowReadUniqueId s
/-- The meaning of CMD READ_UNIQUE_ID (R125). -/
def execCmdReadUniqueId (s : State) : Host.Outcome State Fault Refusal :=
  .next (runRequest 0x004B programCmdReadUniqueId commitCmdReadUniqueId s)

/-- CMD READ_SR1 (R126). -/
def programCmdReadSr1 : List MicroOp := rowReadSr1.txn ++ [.commit]
/-- R126: `RESP[0] <- STG[12]`, the rest 0x00, `RESP_LEN <- 1`. -/
def commitCmdReadSr1 (s : State) : State := commitCmd rowReadSr1 s
/-- The meaning of CMD READ_SR1 (R126). -/
def execCmdReadSr1 (s : State) : Host.Outcome State Fault Refusal :=
  .next (runRequest 0x0005 programCmdReadSr1 commitCmdReadSr1 s)

/-- CMD READ_SR2 (R127). -/
def programCmdReadSr2 : List MicroOp := rowReadSr2.txn ++ [.commit]
/-- R127: `RESP[0] <- STG[13]`, the rest 0x00, `RESP_LEN <- 1`. -/
def commitCmdReadSr2 (s : State) : State := commitCmd rowReadSr2 s
/-- The meaning of CMD READ_SR2 (R127). -/
def execCmdReadSr2 (s : State) : Host.Outcome State Fault Refusal :=
  .next (runRequest 0x0035 programCmdReadSr2 commitCmdReadSr2 s)

/-- CMD READ_SR3 (R128). -/
def programCmdReadSr3 : List MicroOp := rowReadSr3.txn ++ [.commit]
/-- R128: `RESP[0] <- STG[14]`, the rest 0x00, `RESP_LEN <- 1`. -/
def commitCmdReadSr3 (s : State) : State := commitCmd rowReadSr3 s
/-- The meaning of CMD READ_SR3 (R128). -/
def execCmdReadSr3 (s : State) : Host.Outcome State Fault Refusal :=
  .next (runRequest 0x0015 programCmdReadSr3 commitCmdReadSr3 s)

end Sys2Proof.Machine
end

