-- ==== Sys2Proof/Machine/Sequences.lean ====
section
/-! DEFINITION. The five SEQ requests (42_sequences.md): for each its micro-program, its `commit_results` and its meaning. -/

namespace Sys2Proof.Machine

/-- SEQ INIT (R140): configuration calls and pin sets, and no transaction (R141). The order of OUTEN's set is the spec's line: DESIGN
CHOICE, log entry 17. -/
def programSeqInit : List MicroOp :=
  [.cfg clkTargetHz, .fmt, .pinfn .mosi, .pinfn .sck, .pinfn .miso, .outen [.cs, .hold, .wp],
   .set .cs .high, .set .hold .high, .set .wp .high, .commit]
/-- R140: `CLK_ACTUAL <- STG_CLK`, `CFG_STATE <- READY`, `RESP[0..7] <- 0x00`, `RESP_LEN <- 0`. -/
def commitSeqInit (s : State) : State := { s with clkActual := s.stgClk, cfgState := .ready }.setResp []
/-- The meaning of SEQ INIT (R140). -/
def execSeqInit (s : State) : Host.Outcome State Fault Refusal :=
  .next (runRequest 0x0101 programSeqInit commitSeqInit s)

/-- SEQ RESET_SEQ (R142): two windows, then the settle delay. -/
def programSeqResetSeq : List MicroOp := rowEnableReset.txn ++ rowReset.txn ++ [.dly resetSettleUs, .commit]
/-- R142: `RESP[0..7] <- 0x00`, `RESP_LEN <- 0`. -/
def commitSeqResetSeq (s : State) : State := s.setResp []
/-- The meaning of SEQ RESET_SEQ (R142). -/
def execSeqResetSeq (s : State) : Host.Outcome State Fault Refusal :=
  .next (runRequest 0x0102 programSeqResetSeq commitSeqResetSeq s)

/-- SEQ LOAD_DEVICE_INFO (R143): six transactions in the listed order (90_conflicts.md C12). -/
def programSeqLoadDeviceInfo : List MicroOp :=
  rowReleasePdId.txn ++ rowReadJedecId.txn ++ rowReadUniqueId.txn ++ rowReadSr1.txn ++ rowReadSr2.txn ++ rowReadSr3.txn
    ++ [.commit]
/-- R143: all 16 `DEVINFO` bytes from staging, `DEVICE_ID` the constant 0x00 (R144), `RESP[0..7] <- 0x00`, `RESP_LEN <- 0`. -/
def commitSeqLoadDeviceInfo (s : State) : State :=
  { s with devInfo := #v[s.stgAt 0, 0x00, s.stgAt 1, s.stgAt 2, s.stgAt 3, s.stgAt 4, s.stgAt 5, s.stgAt 6, s.stgAt 7,
      s.stgAt 8, s.stgAt 9, s.stgAt 10, s.stgAt 11, s.stgAt 12, s.stgAt 13, s.stgAt 14] }.setResp []
/-- The meaning of SEQ LOAD_DEVICE_INFO (R143). -/
def execSeqLoadDeviceInfo (s : State) : Host.Outcome State Fault Refusal :=
  .next (runRequest 0x0103 programSeqLoadDeviceInfo commitSeqLoadDeviceInfo s)

/-- SEQ IS_BUSY (R145): one SR1 read and no loop (R146). -/
def programSeqIsBusy : List MicroOp := rowReadSr1.txn ++ [.commit]
/-- R145: `RESP[0] <- STG[12]`, the rest 0x00, `RESP_LEN <- 1`. -/
def commitSeqIsBusy (s : State) : State := s.setResp [s.stgAt 12]
/-- The meaning of SEQ IS_BUSY (R145). -/
def execSeqIsBusy (s : State) : Host.Outcome State Fault Refusal :=
  .next (runRequest 0x0104 programSeqIsBusy commitSeqIsBusy s)

/-- SEQ POST_RESET_TEST (R147). -/
def programSeqPostResetTest : List MicroOp :=
  rowReleasePdId.txn ++ rowReadJedecId.txn ++ rowReadSr1.txn ++ [.commit]
/-- R147: `PRT_PASS` from the four comparisons, `RESP` the five bytes read, `RESP_LEN <- 5`. -/
def commitSeqPostResetTest (s : State) : State :=
  { s with prtPass := identityMatches (s.stgAt 0) (s.stgAt 2) (s.stgAt 3) (s.stgAt 12) }.setResp
    [s.stgAt 0, s.stgAt 1, s.stgAt 2, s.stgAt 3, s.stgAt 12]
/-- The meaning of SEQ POST_RESET_TEST (R147). -/
def execSeqPostResetTest (s : State) : Host.Outcome State Fault Refusal :=
  .next (runRequest 0x0105 programSeqPostResetTest commitSeqPostResetTest s)

end Sys2Proof.Machine
end

