-- ==== Sys2Proof/Machine/Block.lean ====
section
/-! DEFINITION. The block one agent step at a time (R7, R100, R171): the Host's submit step, the Block's micro-op step, and the
resumption of a request the environment had not yet answered. -/

namespace Sys2Proof.Machine

/-- The micro-program of a request (R100: "fixed by CUR_REQ alone"). -/
def microProgram : Instr → List MicroOp
  | .cmdEnableReset => programCmdEnableReset
  | .cmdReset => programCmdReset
  | .cmdReleasePdId => programCmdReleasePdId
  | .cmdReadJedecId => programCmdReadJedecId
  | .cmdReadUniqueId => programCmdReadUniqueId
  | .cmdReadSr1 => programCmdReadSr1
  | .cmdReadSr2 => programCmdReadSr2
  | .cmdReadSr3 => programCmdReadSr3
  | .seqInit => programSeqInit
  | .seqResetSeq => programSeqResetSeq
  | .seqLoadDeviceInfo => programSeqLoadDeviceInfo
  | .seqIsBusy => programSeqIsBusy
  | .seqPostResetTest => programSeqPostResetTest

/-- `commit_results(req)` (R108). -/
def commitResults : Instr → State → State
  | .cmdEnableReset => commitCmdEnableReset
  | .cmdReset => commitCmdReset
  | .cmdReleasePdId => commitCmdReleasePdId
  | .cmdReadJedecId => commitCmdReadJedecId
  | .cmdReadUniqueId => commitCmdReadUniqueId
  | .cmdReadSr1 => commitCmdReadSr1
  | .cmdReadSr2 => commitCmdReadSr2
  | .cmdReadSr3 => commitCmdReadSr3
  | .seqInit => commitSeqInit
  | .seqResetSeq => commitSeqResetSeq
  | .seqLoadDeviceInfo => commitSeqLoadDeviceInfo
  | .seqIsBusy => commitSeqIsBusy
  | .seqPostResetTest => commitSeqPostResetTest

/-- `submit(w)` (R171, R172): the Host's one input, enabled only while IDLE. -/
def submit (w : ReqWord) (s : State) : Option State :=
  match s.seqState with
  | .active => none
  | .idle =>
    match decode w with
    | .illegal _ => some (reject errIllegalRequest s)
    | .request _ => some (present w s)

/-- The request an ACTIVE block runs and the micro-op it is about to execute, at index `UPC` (R23, R100); none while IDLE. A state no
run reaches has none: DESIGN CHOICE, log entry 11. -/
def State.nextOp (s : State) : Option (Instr × MicroOp) :=
  match s.seqState with
  | .idle => none
  | .active =>
    match decode s.curReq with
    | .illegal _ => none
    | .request i => ((microProgram i)[s.upc.toNat]?).map fun op => (i, op)

/-- One Block step (R100): the next micro-op of the micro-program of `CUR_REQ`, only while ACTIVE. -/
def blockStep (s : State) : Option State :=
  match s.nextOp with
  | none => none
  | some (i, op) => microStep (commitResults i) op s

/-- One step of whichever agent has one (R7): the Block while ACTIVE, else the Host, which submits its next request word. -/
def agentStep (s : State) : Option State :=
  match s.seqState with
  | .active => blockStep s
  | .idle =>
    match s.submissions with
    | [] => none
    | w :: rest => submit w { s with submissions := rest }

/-- `n` agent steps; `none` if some step is not there. -/
def agentSteps : Nat → State → Option State
  | 0, s => some s
  | n + 1, s => (agentStep s).bind (agentSteps n)

/-- An ACTIVE block goes on with its request from `UPC` until it completes or has no step (R100, R110). -/
def resume (s : State) : State :=
  match decode s.curReq with
  | .illegal _ => s
  | .request i => runOps (commitResults i) ((microProgram i).drop s.upc.toNat) s

end Sys2Proof.Machine
end

