-- ==== Sys2Proof/Machine/Dispatch.lean ====
section
/-! DEFINITION. One arm per request of the opcode table, each one call of the request's meaning. -/

namespace Sys2Proof.Machine

/-- The meaning of a request the Host submits. -/
def exec (i : Instr) (s : State) : Host.Outcome State Fault Refusal :=
  match i with
  | .cmdEnableReset => Sys2Proof.Machine.execCmdEnableReset s
  | .cmdReset => Sys2Proof.Machine.execCmdReset s
  | .cmdReleasePdId => Sys2Proof.Machine.execCmdReleasePdId s
  | .cmdReadJedecId => Sys2Proof.Machine.execCmdReadJedecId s
  | .cmdReadUniqueId => Sys2Proof.Machine.execCmdReadUniqueId s
  | .cmdReadSr1 => Sys2Proof.Machine.execCmdReadSr1 s
  | .cmdReadSr2 => Sys2Proof.Machine.execCmdReadSr2 s
  | .cmdReadSr3 => Sys2Proof.Machine.execCmdReadSr3 s
  | .seqInit => Sys2Proof.Machine.execSeqInit s
  | .seqResetSeq => Sys2Proof.Machine.execSeqResetSeq s
  | .seqLoadDeviceInfo => Sys2Proof.Machine.execSeqLoadDeviceInfo s
  | .seqIsBusy => Sys2Proof.Machine.execSeqIsBusy s
  | .seqPostResetTest => Sys2Proof.Machine.execSeqPostResetTest s

end Sys2Proof.Machine
end

