-- ==== Sys2Proof/Machine/Step.lean ====
section
/-! DEFINITION. One step of the whole machine: an IDLE block takes the Host's next request word, decodes it and runs it; an ACTIVE
block resumes the request it is in. -/

namespace Sys2Proof.Machine

/-- The step. With nothing submitted an IDLE block waits (R200), and an ACTIVE block whose answer is missing holds (R110): both are
a step that changes nothing: DESIGN CHOICE, log entries 2 and 8. An illegal word is rejected (R173). -/
def step (s : State) : Host.Outcome State Fault Refusal :=
  match s.seqState with
  | .active => .next (resume s)
  | .idle =>
    match s.submissions with
    | [] => .next s
    | w :: rest =>
      match decode w with
      | .request i => exec i { s with submissions := rest }
      | .illegal _ => .next (reject errIllegalRequest { s with submissions := rest })

/-- `s` with the Host about to submit the word `w`. The Host can submit only while IDLE (R171), so the block is IDLE in it.
DESIGN CHOICE, log entry 2. -/
def State.withFetchWord (s : State) (_nbits w : Nat) : State :=
  { s with seqState := .idle, submissions := BitVec.ofNat 16 w :: s.submissions }

end Sys2Proof.Machine
end

