-- ==== Sys2Proof/Machine/Bench.lean ====
section
/-! DEFINITION. The Host bench of R83 and R84: the Host agent's statements, one agent step at a time. It is not part of the block.
DESIGN CHOICE, log entry 15. -/

namespace Sys2Proof.Machine

/-- The Host bench statements (R83); a label is a statement index. -/
inductive HostStmt where
  | submit (w : ReqWord)
  | ldrs (x : Fin 4) (off : Byte)
  | andi (x y : Fin 4) (imm : Byte)
  | cmpi (x y : Fin 4) (imm : Byte)
  | bnz (x : Fin 4) (label : Nat)
  | bz (x : Fin 4) (label : Nat)
  | halt
deriving DecidableEq, Repr

/-- The Host beside the block: its statement index, the scratch registers `h0` to `h3` (R83), and whether the SUBMIT it stands at
has already submitted. -/
structure Bench where
  pc : Nat
  h : Vector Byte 4
  submitted : Bool
  block : State
deriving DecidableEq, Repr

/-- The Host's registers start at 0 (95_test_vectors.md, L3). -/
def Bench.start (s : State) : Bench := ⟨0, #v[0, 0, 0, 0], false, s⟩

/-- One step of the Host or, while the Host waits in SUBMIT, of the block (R83); `none` at HALT, past the end, or while the block
holds. -/
def Bench.step (prog : List HostStmt) (b : Bench) : Option Bench :=
  match prog[b.pc]? with
  | none => none
  | some stmt =>
    match stmt with
    | .halt => none
    | .submit w =>
      match b.block.seqState with
      | .active => (blockStep b.block).map fun s => { b with block := s }
      | .idle =>
        if b.submitted then some { b with pc := b.pc + 1, submitted := false }
        else (Machine.submit w b.block).map fun s => { b with block := s, submitted := true }
    | .ldrs x off => some { b with h := b.h.set x (b.block.rsByte off.toNat), pc := b.pc + 1 }
    | .andi x y imm => some { b with h := b.h.set x (b.h[y] &&& imm), pc := b.pc + 1 }
    | .cmpi x y imm => some { b with h := b.h.set x (if b.h[y] = imm then 1 else 0), pc := b.pc + 1 }
    | .bnz x label => some { b with pc := if b.h[x] = 0 then b.pc + 1 else label }
    | .bz x label => some { b with pc := if b.h[x] = 0 then label else b.pc + 1 }

/-- The pseudo-instruction `POLL_READY fail` placed at statement `l` (R84). -/
def pollReady (l fail : Nat) : List HostStmt :=
  [.submit (encode .seqIsBusy), .ldrs 1 0x1A, .bnz 1 fail, .ldrs 0 0x19, .andi 0 0 0x01, .bnz 0 l]

end Sys2Proof.Machine
end

