-- ==== Sys2Proof/Machine/Runs.lean ====
section
/-! DEFINITION. Infinite runs of the four agents (R7), with the one fairness assumption the spec makes: the Timer always answers
eventually (R111, D17, I6). -/

namespace Sys2Proof.Machine

/-- The sleep the Block is in: the `us` of the `DLY(us)` it stands at (R111). -/
def State.sleep (s : State) : Option Nat :=
  match s.nextOp with
  | some (_, .dly us) => some us
  | _ => none

/-- The Timer has reported that at least `us` microseconds have elapsed (R111). -/
def State.timerReports (us : Nat) (s : State) : Bool :=
  match s.timer with
  | t :: _ => decide (us ≤ t)
  | [] => false

/-- One move of one agent (R7): the Block's step, the Host's submission, or the Transport and the Timer answering or not. The last is
possible only where the Block has no step, since at most one of Block, Transport and Timer has one. DEDUCED, log entry 9. -/
inductive Move (s : State) : State → Prop where
  | block {t : State} : blockStep s = some t → Move s t
  | host (w : ReqWord) {t : State} : submit w s = some t → Move s t
  | environment (ts : List TransportAnswer) (us : List Nat) : blockStep s = none → Move s { s with transport := ts, timer := us }

/-- The Timer is fair along `σ`: a sleep the Block is in is over at some later time, or its report is there (R111). -/
def TimerFair (σ : Nat → State) : Prop :=
  ∀ k us, (σ k).sleep = some us → ∃ j, k ≤ j ∧ ((σ j).sleep ≠ some us ∨ (σ j).timerReports us = true)

/-- A run: every move is one agent's, and the Timer is fair. Nothing is assumed of the Transport, which may never answer (R110), nor
of the Host, which may never submit. -/
structure Run (σ : Nat → State) : Prop where
  moves : ∀ k, Move (σ k) (σ (k + 1))
  timerFair : TimerFair σ

end Sys2Proof.Machine
end

