-- ==== Sys2Proof/Safety.lean ====
section
/-! DEFINITION. The terms claims about the block are stated in: chip-select framing of traces, what a request leaves unchanged, the
invariant of the block's states, and reachability under any environment. -/

namespace Sys2Proof.Machine

/-! ### Framing (R58, R106) -/

/-- Where a trace stands with respect to chip-select windows (R106): outside, writing, reading, or just after a fault. -/
inductive WindowPhase where
  | closed | writing | reading | faulted
deriving DecidableEq, Repr

/-- One event of a well-framed trace: a window opens with `CSL`, holds `TX` then `RX` events, at most one `FAULT`, and ends with
`CSH`; every other event lies outside windows. `none` where the event breaks that. -/
def WindowPhase.event : WindowPhase → Event → Option WindowPhase
  | .closed, .csl => some .writing
  | .writing, .tx _ => some .writing
  | .writing, .rx _ => some .reading
  | .reading, .rx _ => some .reading
  | .writing, .fault _ => some .faulted
  | .writing, .csh => some .closed
  | .reading, .csh => some .closed
  | .faulted, .csh => some .closed
  | .closed, .dly _ => some .closed
  | .closed, .pin _ _ => some .closed
  | .closed, .cfg _ => some .closed
  | _, _ => none

/-- Where a whole trace leaves chip-select, or `none` if its framing is broken anywhere. -/
def tracePhase (es : List Event) : Option WindowPhase := es.foldlM WindowPhase.event .closed

/-- Where a micro-op that completes without fault leaves the window (R101). -/
def WindowPhase.op : WindowPhase → MicroOp → WindowPhase
  | _, .csl => .writing
  | _, .csh => .closed
  | _, .rd _ _ => .reading
  | ph, _ => ph

/-- Where a list of completed micro-ops leaves the window. -/
def programPhase (ops : List MicroOp) : WindowPhase := ops.foldl WindowPhase.op .closed

/-- A read phase that stages an SR1 byte (R29). -/
def MicroOp.isSr1Read : MicroOp → Bool
  | .rd _ slot => slot == 12
  | _ => false

/-- The micro-ops of the running request that are done: those before `UPC`; none while IDLE. -/
def State.done (s : State) : List MicroOp :=
  match s.seqState with
  | .idle => []
  | .active =>
    match decode s.curReq with
    | .illegal _ => []
    | .request i => (microProgram i).take s.upc.toNat

/-- The events a micro-op that completes without fault emits (R102 to R105, R108, R111, R140). -/
def MicroOp.did : MicroOp → List Event → Prop
  | .csl, es => es = [.csl]
  | .wr W, es => es = W.map .tx
  | .rd n _, es => ∃ d : List Byte, d.length = n ∧ es = d.map .rx
  | .csh, es => es = [.csh]
  | .dly us, es => es = [.dly us]
  | .cfg hz, es => ∃ a, es = [.cfg (.configure hz a)]
  | .fmt, es => es = [.cfg .setFormat]
  | .pinfn p, es => es = [.cfg (.assignBusFunction p)]
  | .outen ps, es => es = [.cfg (.configureAsOutput ps)]
  | .set p lvl, es => es = [.pin p lvl]
  | .commit, es => es = []

/-- `es` are the events of the completed micro-ops, in order (R62). -/
def Performed : List MicroOp → List Event → Prop
  | [], es => es = []
  | op :: ops, es => ∃ a b, es = a ++ b ∧ op.did a ∧ Performed ops b

/-! ### The invariant -/

/-- What holds of every state of the block (R41, R106, R62, R24, R29, R31, R34, R35, R144, R27). -/
structure StateInv (s : State) : Prop where
  /-- An ACTIVE block runs a decoded request and stands at one of its micro-ops; before READY only INIT runs (R23, R174). -/
  running : s.seqState = .active → ∃ i, decode s.curReq = .request i ∧ s.upc.toNat < (microProgram i).length ∧
    (i ≠ .seqInit → s.cfgState = .ready)
  /-- The trace is well framed and stands where the running request stands (R106). -/
  framed : tracePhase s.trace = some (programPhase s.done)
  /-- The trace ends with the events of the running request's completed micro-ops, one contiguous segment in order (R62). -/
  performed : s.seqState = .active → ∃ before es, s.trace = before ++ es ∧ Performed s.done es
  /-- Once READY, CS is LOW exactly inside a window, HOLD and WP are HIGH and the bus format is set (R41, R26, R27). -/
  readyPins : s.cfgState = .ready →
    s.cs = (if programPhase s.done = .closed then .high else .low) ∧ s.hold = .high ∧ s.wp = .high ∧ s.busFmt = busFormat
  /-- Before any INIT the pins are undriven and the bus unconfigured (R25, R26, R27). -/
  uninitPins : s.cfgState = .uninit → s.seqState = .idle →
    s.cs = .undriven ∧ s.hold = .undriven ∧ s.wp = .undriven ∧ s.busFmt = .unconfigured
  /-- During the first INIT, a pin already set has its level and a format already set is the one of R27 (R140). -/
  initProgress : s.cfgState = .uninit →
    (∀ p lvl, MicroOp.set p lvl ∈ s.done → s.level p = lvl) ∧ (MicroOp.fmt ∈ s.done → s.busFmt = busFormat)
  /-- TXN_IDX counts the closed windows of the running request (R24). -/
  txnCount : s.seqState = .active → s.txnIdx.toNat = s.done.count .csh
  /-- STG_SR1V says whether an SR1 byte was staged in this request (R29). -/
  sr1Staged : s.seqState = .active → s.stgSr1v = s.done.any MicroOp.isSr1Read
  /-- RESULT_VALID marks an IDLE block whose last request succeeded (R34). -/
  validMeansSuccess : s.resultValid = true → s.seqState = .idle ∧ s.errCode = 0x00
  /-- The ERR_* registers hold one of the outcomes of R170. -/
  errRecord : (s.errCode = 0x01 ∧ s.errTxn.toNat ≤ 5 ∧ (s.errPhase = 1 ∨ s.errPhase = 2)) ∨
    ((s.errCode = 0x00 ∨ s.errCode = 0x02 ∨ s.errCode = 0x03) ∧ s.errTxn = 0 ∧ s.errPhase = 0)
  /-- RESP_LEN is at most 8 and the response bytes past it are 0x00 (R31). -/
  respPadded : s.respLen.toNat ≤ 8 ∧ ∀ k, (h : k < 8) → s.respLen.toNat ≤ k → s.resp[k] = 0x00
  /-- DEVICE_ID is the reserved constant 0x00 (R144). -/
  deviceIdZero : s.devInfo[1] = 0x00

/-- The states the block can reach from block reset under any environment: the Host may submit anything, and the Transport and the
Timer may supply any answers, between any two steps (R7, R9). -/
inductive Reachable : State → Prop where
  | reset : Reachable State.reset
  | agent {s t : State} : Reachable s → agentStep s = some t → Reachable t
  | inputs {s : State} (ws : List ReqWord) (ts : List TransportAnswer) (us : List Nat) :
      Reachable s → Reachable { s with submissions := ws, transport := ts, timer := us }

/-! ### What a request does and leaves unchanged -/

/-- A block at rest that accepts any request (R41): IDLE, READY, chip-select HIGH. -/
def Ready (s : State) : Prop := s.seqState = .idle ∧ s.cfgState = .ready ∧ s.cs = .high

/-- `t` is `s` after the request `w` completed successfully: the events it appended, the response, and the success record of R108. -/
def Succeeded (w : ReqWord) (events : List Event) (response : List Byte) (s t : State) : Prop :=
  t.seqState = .idle ∧ t.curReq = w ∧ t.cs = .high ∧ t.trace = s.trace ++ events ∧
  t.resp.toList = response ++ List.replicate (8 - response.length) 0x00 ∧ t.respLen.toNat = response.length ∧
  t.resultValid = true ∧ t.errCode = 0x00 ∧ t.errTxn = 0 ∧ t.errPhase = 0

/-- `t` is `s` after the request `w` aborted in transaction `k` at `phase` (R176). -/
def Aborted (w : ReqWord) (events : List Event) (k : Nat) (phase : Phase) (s t : State) : Prop :=
  t.seqState = .idle ∧ t.curReq = w ∧ t.cs = .high ∧ t.trace = s.trace ++ events ∧
  t.resultValid = false ∧ t.errCode = 0x01 ∧ t.errTxn.toNat = k ∧ t.errPhase = (match phase with | .write => 1 | .read => 2)

/-- The result registers other than RESULT_VALID and ERR_*, with CFG_STATE, are the same (R176, R177). -/
def SameResults (s t : State) : Prop :=
  t.devInfo = s.devInfo ∧ t.resp = s.resp ∧ t.respLen = s.respLen ∧ t.busyFlag = s.busyFlag ∧ t.prtPass = s.prtPass ∧
  t.clkActual = s.clkActual ∧ t.cfgState = s.cfgState

/-- The registers only INIT writes, the pins no other request moves, and the inputs no request consumes (R21, R26 to R28). -/
def SameSetup (s t : State) : Prop :=
  t.cfgState = s.cfgState ∧ t.hold = s.hold ∧ t.wp = s.wp ∧ t.busFmt = s.busFmt ∧ t.clkActual = s.clkActual ∧
  t.submissions = s.submissions

/-- `t` is where a step leads from `s` that resumes the request `i` after a hold (R110): `s` is ACTIVE in `i` and meets the
invariant. -/
def Resumes (i : Instr) (s t : State) : Prop :=
  StateInv s ∧ s.seqState = .active ∧ decode s.curReq = .request i ∧ step s = .next t

/-- The state with its result registers blanked: what bus behaviour may depend on (R39). -/
def State.eraseResults (s : State) : State :=
  { s with
    devInfo := State.reset.devInfo, resp := State.reset.resp, respLen := 0, busyFlag := false, prtPass := false
    resultValid := false, errCode := 0, errTxn := 0, errPhase := 0, clkActual := 0 }

/-- The requests that are CMD requests (R71). -/
def isCmd (i : Instr) : Bool := encodeClass i == 0x00

/-! ### Windows and the answers they need -/

/-- The Transport's answers that let one command's transaction complete, its read returning `b` (R103, R104). -/
def Descriptor.answers (d : Descriptor) (b : List Byte) : List TransportAnswer :=
  .writeOk :: (if d.readLen > 0 then [.readOk b] else [])

/-- The events of one completed transaction (R76, R106). -/
def Descriptor.events (d : Descriptor) (b : List Byte) : List Event :=
  [.csl] ++ d.writePhase.map .tx ++ b.map .rx ++ [.csh]

/-- The answers for several transactions in order. -/
def answersOf (l : List (Descriptor × List Byte)) : List TransportAnswer := l.flatMap fun x => x.1.answers x.2

/-- The events of several transactions in order. -/
def eventsOf (l : List (Descriptor × List Byte)) : List Event := l.flatMap fun x => x.1.events x.2

end Sys2Proof.Machine
end

