-- ==== Sys2Proof/Certificates/Slice0/Obligations.lean ====
section
/-! DEFINITION. The statements for the provers: one `def Obligations.<Name> : Prop` each, from the spec's numbered rules. -/

open Sys2Proof Sys2Proof.Machine

/-! ### Encoding -/

/-- R70 to R75: a word decodes to a request exactly when it is that request's word, and the thirteen words are the table's. -/
def Obligations.DecodeReadsExactlyTheThirteenWords : Prop :=
  (∀ (w : ReqWord) (i : Instr), decode w = .request i ↔ w = encode i) ∧
  (∀ i j : Instr, encode i = encode j → i = j) ∧
  [encode .cmdEnableReset, encode .cmdReset, encode .cmdReleasePdId, encode .cmdReadJedecId, encode .cmdReadUniqueId,
    encode .cmdReadSr1, encode .cmdReadSr2, encode .cmdReadSr3, encode .seqInit, encode .seqResetSeq,
    encode .seqLoadDeviceInfo, encode .seqIsBusy, encode .seqPostResetTest] =
  [0x0066, 0x0099, 0x00AB, 0x009F, 0x004B, 0x0005, 0x0035, 0x0015, 0x0101, 0x0102, 0x0103, 0x0104, 0x0105]

/-- The round trip of the encoder and the decoder, over every request. -/
def Obligations.DecodeOfEncodeIsTheRequest : Prop :=
  ∀ i : Instr, i.wellFormed = true ∧ decode (encode i) = .request i ∧ decodeTableWord 16 (encode i).toNat = some i

/-- R80: each of the three groups of words is illegal under its own name, and every illegal word is in one of them. -/
def Obligations.IllegalWordsAreTheThreeGroups : Prop :=
  ∀ w : ReqWord,
    (2 ≤ (w.extractLsb' 8 8 : BitVec 8).toNat → decode w = .illegal (.reservedClass (w.extractLsb' 8 8))) ∧
    ((w.extractLsb' 8 8 : BitVec 8) = 0x00 →
      (w.extractLsb' 0 8 : BitVec 8) ∉ [0x66#8, 0x99#8, 0xAB#8, 0x9F#8, 0x4B#8, 0x05#8, 0x35#8, 0x15#8] →
      decode w = .illegal (.unusedCmdCode (w.extractLsb' 0 8))) ∧
    ((w.extractLsb' 8 8 : BitVec 8) = 0x01 →
      ((w.extractLsb' 0 8 : BitVec 8) = 0x00 ∨ 0x06 ≤ (w.extractLsb' 0 8 : BitVec 8).toNat) →
      decode w = .illegal (.unusedSeqCode (w.extractLsb' 0 8))) ∧
    (∀ why, decode w = .illegal why →
      2 ≤ (w.extractLsb' 8 8 : BitVec 8).toNat ∨
      ((w.extractLsb' 8 8 : BitVec 8) = 0x00 ∧
        (w.extractLsb' 0 8 : BitVec 8) ∉ [0x66#8, 0x99#8, 0xAB#8, 0x9F#8, 0x4B#8, 0x05#8, 0x35#8, 0x15#8]) ∨
      ((w.extractLsb' 8 8 : BitVec 8) = 0x01 ∧
        ((w.extractLsb' 0 8 : BitVec 8) = 0x00 ∨ 0x06 ≤ (w.extractLsb' 0 8 : BitVec 8).toNat)))

/-- A sanity statement: words written out from R73 and R74 decode to their requests, and three unused words to none. -/
def Obligations.TableWordsDecode : Prop :=
  decodeTableWord 16 0b0000000001001011 = some .cmdReadUniqueId ∧
  decodeTableWord 16 0b0000000000000101 = some .cmdReadSr1 ∧
  decodeTableWord 16 0b0000000100000100 = some .seqIsBusy ∧
  decodeTableWord 16 0b0000000100000101 = some .seqPostResetTest ∧
  decodeTableWord 16 0x0006 = none ∧ decodeTableWord 16 0x0100 = none ∧ decodeTableWord 16 0x0200 = none

/-! ### The step -/

/-- A step of an IDLE block runs the request the Host's next word decodes to, or rejects the illegal word, that word being
consumed. (The queue of words to come is the model's: log entry 2.) -/
def Obligations.StepRunsTheDecodedRequest : Prop :=
  ∀ (s : State) (w : ReqWord) (rest : List ReqWord), s.seqState = .idle → s.submissions = w :: rest →
    (∀ i, decode w = .request i → step s = exec i { s with submissions := rest }) ∧
    (∀ why, decode w = .illegal why →
      step s = .next { s with submissions := rest, errCode := 0x02, errTxn := 0, errPhase := 0, resultValid := false })

/-- A word placed for the next submission is the one the very next step runs. (The placing is the model's: log entry 2.) -/
def Obligations.FetchWordIsTheNextRequestRun : Prop :=
  ∀ (s : State) (i : Instr), step (s.withFetchWord 16 (encode i).toNat) = exec i { s with seqState := .idle }

/-- R173: an illegal word is rejected in the submit step; nothing but ERR_* and RESULT_VALID changes, and the block stays IDLE. -/
def Obligations.IllegalWordIsRejected : Prop :=
  ∀ (s : State) (w : ReqWord) (why : IllegalReason), s.seqState = .idle → decode w = .illegal why →
    submit w s = some { s with errCode := 0x02, errTxn := 0, errPhase := 0, resultValid := false }

/-- R174: before INIT every other request is rejected with NOT_INITIALIZED and changes nothing else; INIT is accepted. -/
def Obligations.RequestBeforeInitIsRejected : Prop :=
  ∀ s : State, s.seqState = .idle → s.cfgState = .uninit →
    (∀ i : Instr, i ≠ .seqInit →
      exec i s = .next { s with errCode := 0x03, errTxn := 0, errPhase := 0, resultValid := false } ∧
      submit (encode i) s = some { s with errCode := 0x03, errTxn := 0, errPhase := 0, resultValid := false }) ∧
    (∃ t, submit 0x0101 s = some t ∧ t.seqState = .active ∧ t.curReq = 0x0101)

/-- R172: the submission checks in their order. -/
def Obligations.SubmissionChecksRunInOrder : Prop :=
  ∀ (s : State) (w : ReqWord), s.seqState = .idle →
    (∀ why, decode w = .illegal why → ∃ t, submit w s = some t ∧ t.seqState = .idle ∧ t.errCode = 0x02) ∧
    (∀ i, decode w = .request i → s.cfgState = .uninit → w ≠ 0x0101 →
      ∃ t, submit w s = some t ∧ t.seqState = .idle ∧ t.errCode = 0x03) ∧
    (∀ i, decode w = .request i → (s.cfgState = .ready ∨ w = 0x0101) →
      ∃ t, submit w s = some t ∧ t.seqState = .active ∧ t.errCode = s.errCode)

/-- R171: submission is enabled only while IDLE; a submit step rejects the word, which completes it at once, or accepts it;
acceptance writes the sequencer state and clears RESULT_VALID, and ERR_*, the other result registers, the pins and the trace keep
their values. -/
def Obligations.AcceptanceStartsTheRequest : Prop :=
  (∀ (s : State) (w : ReqWord), s.seqState = .active → submit w s = none) ∧
  (∀ (s : State) (w : ReqWord), s.seqState = .idle → ∃ t, submit w s = some t ∧
    ((∃ code, (code = 0x02 ∨ code = 0x03) ∧ t = { s with errCode := code, errTxn := 0, errPhase := 0, resultValid := false }) ∨
      (t.seqState = .active ∧ t.curReq = w))) ∧
  (∀ (s : State) (w : ReqWord) (i : Instr), s.seqState = .idle → decode w = .request i → (s.cfgState = .ready ∨ w = 0x0101) →
    ∃ t, submit w s = some t ∧ t.curReq = w ∧ t.seqState = .active ∧ t.upc = 0 ∧ t.txnIdx = 0 ∧ t.stgSr1v = false ∧
      t.resultValid = false ∧ t.errCode = s.errCode ∧ t.errTxn = s.errTxn ∧ t.errPhase = s.errPhase ∧
      SameResults s t ∧ SameSetup s t ∧ t.cs = s.cs ∧ t.trace = s.trace ∧ t.transport = s.transport ∧ t.timer = s.timer)

/-- R200, R171: an IDLE block with nothing submitted waits, and while the block is ACTIVE the Host holds: its request is neither
taken nor lost. (That waiting is a step that changes nothing is the model's choice: log entry 2.) -/
def Obligations.IdleBlockAndHeldHostWait : Prop :=
  (∀ s : State, s.seqState = .idle → s.submissions = [] → step s = .next s ∧ agentStep s = none) ∧
  (∀ (s : State) (i : Instr), s.seqState = .active → exec i s = .next s ∧ ∀ t, step s = .next t → t.submissions = s.submissions)

/-- R110, R100: while the pending phase, INIT's `configure` or the sleep has no answer, the Block has no step and holds where it is.
(Holding as a step that changes nothing is the model's: log entry 2.) -/
def Obligations.UnansweredPhaseHoldsTheBlock : Prop :=
  ∀ (s : State) (i : Instr), s.seqState = .active → decode s.curReq = .request i →
    (s.transport = [] → (∀ W, (microProgram i)[s.upc.toNat]? = some (.wr W) → blockStep s = none ∧ step s = .next s) ∧
      (∀ n k, (microProgram i)[s.upc.toNat]? = some (.rd n k) → blockStep s = none ∧ step s = .next s) ∧
      (∀ hz, (microProgram i)[s.upc.toNat]? = some (.cfg hz) → blockStep s = none ∧ step s = .next s)) ∧
    (s.timer = [] → ∀ us, (microProgram i)[s.upc.toNat]? = some (.dly us) → blockStep s = none ∧ step s = .next s)

/-- R110: a request whose first phase is never answered stays ACTIVE with chip-select LOW. -/
def Obligations.HungRequestKeepsChipSelectLow : Prop :=
  ∀ (i : Instr) (s : State), i ≠ .seqInit → Ready s → s.transport = [] →
    ∃ t, exec i s = .next t ∧ t.seqState = .active ∧ t.cs = .low ∧ t.upc = 1 ∧ t.resultValid = false ∧
      t.trace = s.trace ++ [.csl] ∧ SameResults s t ∧ ∀ t', step t = .next t' → t' = t

/-! ### The micro-ops -/

/-- R102: CSL drives chip-select low where it is HIGH and has no step elsewhere, it opens every transaction, and no reachable state
fails its precondition. -/
def Obligations.ChipSelectLowOpensTheWindow : Prop :=
  (∀ (cr : State → State) (s : State), s.cs = .high →
    microStep cr .csl s = some { s with cs := .low, trace := s.trace ++ [.csl], upc := s.upc + 1 }) ∧
  (∀ (cr : State → State) (s : State), s.cs ≠ .high → microStep cr .csl s = none) ∧
  (∀ W n slot, (txn W n slot).head? = some .csl) ∧
  (∀ (s : State) (i : Instr), Reachable s → s.seqState = .active → decode s.curReq = .request i →
    (microProgram i)[s.upc.toNat]? = some .csl → s.cs = .high)

/-- R103, R176: the three outcomes of a write phase. (Answers as a queue, and the abort in the faulting step, are the model's: log
entries 1 and 6.) -/
def Obligations.WritePhaseOutcomes : Prop :=
  ∀ (cr : State → State) (W : List Byte) (s : State),
    (∀ rest, s.transport = .writeOk :: rest →
      microStep cr (.wr W) s =
        some { s with transport := rest, trace := s.trace ++ W.map .tx, upc := s.upc + 1 }) ∧
    (∀ k rest, k ≤ W.length → s.transport = .writeFault k :: rest →
      microStep cr (.wr W) s =
        some { s with transport := rest, trace := s.trace ++ (W.take k).map .tx ++ [.fault .write, .csh], cs := .high,
                      errCode := 0x01, errTxn := s.txnIdx.setWidth 8, errPhase := 1, resultValid := false, seqState := .idle }) ∧
    (s.transport = [] → microStep cr (.wr W) s = none)

/-- R104, R176: the three outcomes of a read phase, and its place in the transaction. (Answers as a queue, and the abort in the
faulting step, are the model's: log entries 1 and 6.) -/
def Obligations.ReadPhaseOutcomes : Prop :=
  (∀ (cr : State → State) (n slot : Nat) (s : State), 1 ≤ n →
    (∀ d rest, d.length = n → slot + n ≤ 15 → s.transport = .readOk d :: rest →
      ∃ t, microStep cr (.rd n slot) s = some t ∧
        t = { s with transport := rest, trace := s.trace ++ d.map .rx, stg := t.stg,
                     stgSr1v := if slot = 12 then true else s.stgSr1v, upc := s.upc + 1 } ∧
        ∀ j, (h : j < 15) → t.stg[j] = (if slot ≤ j ∧ j < slot + n then d.getD (j - slot) 0 else s.stg[j])) ∧
    (∀ rest, s.transport = .readFault :: rest →
      microStep cr (.rd n slot) s =
        some { s with transport := rest, trace := s.trace ++ [.fault .read, .csh], cs := .high,
                      errCode := 0x01, errTxn := s.txnIdx.setWidth 8, errPhase := 2, resultValid := false, seqState := .idle }) ∧
    (s.transport = [] → microStep cr (.rd n slot) s = none)) ∧
  (∀ W n slot, 1 ≤ n → txn W n slot = [.csl, .wr W, .rd n slot, .csh])

/-- R105: CSH closes the window; a faulted phase makes the same deassertion; no completed request leaves chip-select asserted. -/
def Obligations.ChipSelectHighClosesTheWindow : Prop :=
  (∀ (cr : State → State) (s : State),
    microStep cr .csh s = some { s with cs := .high, trace := s.trace ++ [.csh], txnIdx := s.txnIdx + 1, upc := s.upc + 1 }) ∧
  (∀ (cr : State → State) (op : MicroOp) (s t : State), op ≠ .commit → s.seqState = .active → microStep cr op s = some t →
    t.seqState = .idle → t.cs = .high ∧ ∃ es, t.trace = s.trace ++ es ++ [.csh]) ∧
  (∀ (i : Instr) (s t : State), Ready s → exec i s = .next t → t.seqState = .idle → t.cs = .high)

/-- R111, D17, I6: a sleep completes once the Timer reports at least `us`; along every run, whose Timer is fair, a sleeping block
holds, emitting nothing, until its DLY completes, and it does complete; the only sleep is the 30 µs after a Reset opcode. (The Timer's
reports as a queue, an early report being none, are the model's: log entry 1; so is the form of a run: log entry 9.) -/
def Obligations.SleepLastsAtLeastTheRequestedTime : Prop :=
  (∀ (cr : State → State) (us : Nat) (s : State),
    (∀ t rest, us ≤ t → s.timer = t :: rest →
      microStep cr (.dly us) s = some { s with timer := rest, trace := s.trace ++ [.dly us], upc := s.upc + 1 }) ∧
    (∀ t rest, t < us → s.timer = t :: rest → microStep cr (.dly us) s = none)) ∧
  (∀ σ, Run σ → ∀ k us, (σ k).sleep = some us →
    ∃ j, k ≤ j ∧ (∀ m, k ≤ m → m ≤ j → (σ m).sleep = some us ∧ (σ m).trace = (σ k).trace) ∧
      (σ (j + 1)).trace = (σ k).trace ++ [.dly us] ∧ (σ (j + 1)).upc = (σ j).upc + 1) ∧
  (∀ (i : Instr) (us : Nat), MicroOp.dly us ∈ microProgram i → us = 30 ∧ (i = .cmdReset ∨ i = .seqResetSeq))

/-- R140: INIT's own micro-ops. The level `OUTEN` gives an undriven pin is open: it is low or high (log entry 4). Its set of pins
is recorded as the list CS, HOLD, WP: the model's choice (log entry 17). -/
def Obligations.ConfigurationMicroOps : Prop :=
  ∀ (cr : State → State) (s : State),
    (∀ hz a rest, s.transport = .rate a :: rest →
      microStep cr (.cfg hz) s =
        some { s with transport := rest, stgClk := a, trace := s.trace ++ [.cfg (.configure hz a)], upc := s.upc + 1 }) ∧
    microStep cr .fmt s =
      some { s with busFmt := .configured 8 .low .high .msbFirst, trace := s.trace ++ [.cfg .setFormat], upc := s.upc + 1 } ∧
    (∀ p, microStep cr (.pinfn p) s = some { s with trace := s.trace ++ [.cfg (.assignBusFunction p)], upc := s.upc + 1 }) ∧
    (∃ t, microStep cr (.outen [.cs, .hold, .wp]) s = some t ∧
      t = { s with cs := t.cs, hold := t.hold, wp := t.wp, upc := s.upc + 1, freeCount := t.freeCount,
                   trace := s.trace ++ [.cfg (.configureAsOutput [.cs, .hold, .wp])] } ∧
      (s.cs ≠ .undriven → t.cs = s.cs) ∧ (s.hold ≠ .undriven → t.hold = s.hold) ∧ (s.wp ≠ .undriven → t.wp = s.wp) ∧
      t.cs ≠ .undriven ∧ t.hold ≠ .undriven ∧ t.wp ≠ .undriven) ∧
    (∀ lvl, microStep cr (.set .cs lvl) s = some { s with cs := lvl, trace := s.trace ++ [.pin .cs lvl], upc := s.upc + 1 }) ∧
    (∀ lvl, microStep cr (.set .hold lvl) s =
      some { s with hold := lvl, trace := s.trace ++ [.pin .hold lvl], upc := s.upc + 1 }) ∧
    (∀ lvl, microStep cr (.set .wp lvl) s = some { s with wp := lvl, trace := s.trace ++ [.pin .wp lvl], upc := s.upc + 1 })

/-- R108: what COMMIT does for every request, that it is the last micro-op of every micro-program, and that no other micro-op
changes a committed result. -/
def Obligations.CommitCompletesTheRequest : Prop :=
  (∀ (i : Instr) (s : State), ∃ t, microStep (commitResults i) .commit s = some t ∧
    t.busyFlag = (if s.stgSr1v then s.stg[12].getLsbD 0 else s.busyFlag) ∧
    t.resultValid = true ∧ t.errCode = 0x00 ∧ t.errTxn = 0 ∧ t.errPhase = 0 ∧ t.seqState = .idle ∧
    t.resp = (commitResults i s).resp ∧ t.respLen = (commitResults i s).respLen ∧
    t.devInfo = (commitResults i s).devInfo ∧ t.prtPass = (commitResults i s).prtPass ∧
    t.clkActual = (commitResults i s).clkActual ∧ t.cfgState = (commitResults i s).cfgState ∧
    t.trace = s.trace ∧ t.cs = s.cs ∧ t.hold = s.hold ∧ t.wp = s.wp) ∧
  (∀ i : Instr, ∃ body, microProgram i = body ++ [.commit] ∧ .commit ∉ body) ∧
  (∀ (i : Instr) (op : MicroOp) (s t : State), op ≠ .commit → microStep (commitResults i) op s = some t → SameResults s t)

/-! ### The micro-programs -/

/-- R120, R122, R140, R142, R143, R145, R147: the thirteen micro-programs, written out. (R140 gives OUTEN a set of
pins; the list CS, HOLD, WP is the model's choice: log entry 17.) -/
def Obligations.MicroProgramsAreTheSpecs : Prop :=
  microProgram .cmdEnableReset = [.csl, .wr [0x66], .csh, .commit] ∧
  microProgram .cmdReset = [.csl, .wr [0x99], .csh, .dly 30, .commit] ∧
  microProgram .cmdReleasePdId = [.csl, .wr [0xAB, 0x00, 0x00, 0x00], .rd 1 0, .csh, .commit] ∧
  microProgram .cmdReadJedecId = [.csl, .wr [0x9F], .rd 3 1, .csh, .commit] ∧
  microProgram .cmdReadUniqueId = [.csl, .wr [0x4B, 0x00, 0x00, 0x00, 0x00], .rd 8 4, .csh, .commit] ∧
  microProgram .cmdReadSr1 = [.csl, .wr [0x05], .rd 1 12, .csh, .commit] ∧
  microProgram .cmdReadSr2 = [.csl, .wr [0x35], .rd 1 13, .csh, .commit] ∧
  microProgram .cmdReadSr3 = [.csl, .wr [0x15], .rd 1 14, .csh, .commit] ∧
  microProgram .seqInit = [.cfg 100000000, .fmt, .pinfn .mosi, .pinfn .sck, .pinfn .miso, .outen [.cs, .hold, .wp],
    .set .cs .high, .set .hold .high, .set .wp .high, .commit] ∧
  microProgram .seqResetSeq = [.csl, .wr [0x66], .csh, .csl, .wr [0x99], .csh, .dly 30, .commit] ∧
  microProgram .seqLoadDeviceInfo = [.csl, .wr [0xAB, 0x00, 0x00, 0x00], .rd 1 0, .csh, .csl, .wr [0x9F], .rd 3 1, .csh,
    .csl, .wr [0x4B, 0x00, 0x00, 0x00, 0x00], .rd 8 4, .csh, .csl, .wr [0x05], .rd 1 12, .csh,
    .csl, .wr [0x35], .rd 1 13, .csh, .csl, .wr [0x15], .rd 1 14, .csh, .commit] ∧
  microProgram .seqIsBusy = [.csl, .wr [0x05], .rd 1 12, .csh, .commit] ∧
  microProgram .seqPostResetTest = [.csl, .wr [0xAB, 0x00, 0x00, 0x00], .rd 1 0, .csh, .csl, .wr [0x9F], .rd 3 1, .csh,
    .csl, .wr [0x05], .rd 1 12, .csh, .commit]

/-! ### What each request does -/

/-- R121: ENABLE_RESET sends 0x66 in one window and commits an empty response. -/
def Obligations.EnableResetCompletes : Prop :=
  ∀ (s : State) (rest : List TransportAnswer), Ready s → s.transport = .writeOk :: rest →
    ∃ t, exec .cmdEnableReset s = .next t ∧ Succeeded 0x0066 [.csl, .tx 0x66, .csh] [] s t ∧
      t.busyFlag = s.busyFlag ∧ t.devInfo = s.devInfo ∧ t.prtPass = s.prtPass ∧ SameSetup s t ∧
      t.transport = rest ∧ t.timer = s.timer

/-- R122: RESET sends 0x99 in one window, sleeps at least 30 µs, then commits an empty response. -/
def Obligations.ResetCompletesAfterTheSettleDelay : Prop :=
  ∀ (s : State) (rest : List TransportAnswer) (us : Nat) (later : List Nat), Ready s → s.transport = .writeOk :: rest →
    s.timer = us :: later → 30 ≤ us →
    ∃ t, exec .cmdReset s = .next t ∧ Succeeded 0x0099 [.csl, .tx 0x99, .csh, .dly 30] [] s t ∧
      t.busyFlag = s.busyFlag ∧ t.devInfo = s.devInfo ∧ t.prtPass = s.prtPass ∧ SameSetup s t ∧
      t.transport = rest ∧ t.timer = later

/-- R123: RELEASE_PD_ID sends 0xAB and three dummy bytes, and commits the byte read. -/
def Obligations.ReleasePdIdCommitsItsByte : Prop :=
  ∀ (s : State) (b : Byte) (rest : List TransportAnswer), Ready s → s.transport = .writeOk :: .readOk [b] :: rest →
    ∃ t, exec .cmdReleasePdId s = .next t ∧
      Succeeded 0x00AB [.csl, .tx 0xAB, .tx 0x00, .tx 0x00, .tx 0x00, .rx b, .csh] [b] s t ∧
      t.busyFlag = s.busyFlag ∧ t.devInfo = s.devInfo ∧ t.prtPass = s.prtPass ∧ SameSetup s t ∧
      t.transport = rest ∧ t.timer = s.timer

/-- R124: READ_JEDEC_ID sends 0x9F and commits the three bytes read, in arrival order. -/
def Obligations.ReadJedecIdCommitsThreeBytes : Prop :=
  ∀ (s : State) (b0 b1 b2 : Byte) (rest : List TransportAnswer), Ready s →
    s.transport = .writeOk :: .readOk [b0, b1, b2] :: rest →
    ∃ t, exec .cmdReadJedecId s = .next t ∧
      Succeeded 0x009F [.csl, .tx 0x9F, .rx b0, .rx b1, .rx b2, .csh] [b0, b1, b2] s t ∧
      t.busyFlag = s.busyFlag ∧ t.devInfo = s.devInfo ∧ t.prtPass = s.prtPass ∧ SameSetup s t ∧
      t.transport = rest ∧ t.timer = s.timer

/-- R125: READ_UNIQUE_ID sends 0x4B and four dummy bytes, and commits the eight bytes read, in arrival order. -/
def Obligations.ReadUniqueIdCommitsEightBytes : Prop :=
  ∀ (s : State) (d : List Byte) (rest : List TransportAnswer), Ready s → d.length = 8 →
    s.transport = .writeOk :: .readOk d :: rest →
    ∃ t, exec .cmdReadUniqueId s = .next t ∧
      Succeeded 0x004B (List.flatten [[Event.csl, .tx 0x4B, .tx 0x00, .tx 0x00, .tx 0x00, .tx 0x00], d.map Event.rx, [Event.csh]]) d s t ∧
      t.busyFlag = s.busyFlag ∧ t.devInfo = s.devInfo ∧ t.prtPass = s.prtPass ∧ SameSetup s t ∧
      t.transport = rest ∧ t.timer = s.timer

/-- R126, R129: the byte and the busy bit. -/
def Obligations.ReadSr1CommitsTheByteAndTheBusyBit : Prop :=
  ∀ (s : State) (b : Byte) (rest : List TransportAnswer), Ready s → s.transport = .writeOk :: .readOk [b] :: rest →
    ∃ t, exec .cmdReadSr1 s = .next t ∧ Succeeded 0x0005 [.csl, .tx 0x05, .rx b, .csh] [b] s t ∧
      t.busyFlag = b.getLsbD 0 ∧ t.devInfo = s.devInfo ∧ t.prtPass = s.prtPass ∧ SameSetup s t ∧
      t.transport = rest ∧ t.timer = s.timer

/-- R127: bit 0 of SR2 is not the busy bit. -/
def Obligations.ReadSr2LeavesTheBusyFlag : Prop :=
  ∀ (s : State) (b : Byte) (rest : List TransportAnswer), Ready s → s.transport = .writeOk :: .readOk [b] :: rest →
    ∃ t, exec .cmdReadSr2 s = .next t ∧ Succeeded 0x0035 [.csl, .tx 0x35, .rx b, .csh] [b] s t ∧
      t.busyFlag = s.busyFlag ∧ t.devInfo = s.devInfo ∧ t.prtPass = s.prtPass ∧ SameSetup s t ∧
      t.transport = rest ∧ t.timer = s.timer

/-- R128: READ_SR3 commits the byte; the busy flag keeps its value. -/
def Obligations.ReadSr3LeavesTheBusyFlag : Prop :=
  ∀ (s : State) (b : Byte) (rest : List TransportAnswer), Ready s → s.transport = .writeOk :: .readOk [b] :: rest →
    ∃ t, exec .cmdReadSr3 s = .next t ∧ Succeeded 0x0015 [.csl, .tx 0x15, .rx b, .csh] [b] s t ∧
      t.busyFlag = s.busyFlag ∧ t.devInfo = s.devInfo ∧ t.prtPass = s.prtPass ∧ SameSetup s t ∧
      t.transport = rest ∧ t.timer = s.timer

/-- R140: INIT from any IDLE state, READY or not, once `configure` has answered. (R140 gives OUTEN a set of pins; the event's list CS,
HOLD, WP is the model's choice: log entry 17.) -/
def Obligations.InitConfiguresTheBlock : Prop :=
  ∀ (s : State) (a : Hz) (rest : List TransportAnswer), s.seqState = .idle → s.transport = .rate a :: rest →
    ∃ t, exec .seqInit s = .next t ∧
      Succeeded 0x0101 [.cfg (.configure 100000000 a), .cfg .setFormat, .cfg (.assignBusFunction .mosi),
        .cfg (.assignBusFunction .sck), .cfg (.assignBusFunction .miso), .cfg (.configureAsOutput [.cs, .hold, .wp]),
        .pin .cs .high, .pin .hold .high, .pin .wp .high] [] s t ∧
      t.cfgState = .ready ∧ t.clkActual = a ∧ t.hold = .high ∧ t.wp = .high ∧
      t.busFmt = .configured 8 .low .high .msbFirst ∧
      t.busyFlag = s.busyFlag ∧ t.devInfo = s.devInfo ∧ t.prtPass = s.prtPass ∧
      t.submissions = s.submissions ∧ t.transport = rest ∧ t.timer = s.timer

/-- R142: two windows, 0x66 then 0x99, then the settle delay. -/
def Obligations.ResetSeqSendsThePairAndWaits : Prop :=
  ∀ (s : State) (rest : List TransportAnswer) (us : Nat) (later : List Nat), Ready s →
    s.transport = .writeOk :: .writeOk :: rest → s.timer = us :: later → 30 ≤ us →
    ∃ t, exec .seqResetSeq s = .next t ∧
      Succeeded 0x0102 [.csl, .tx 0x66, .csh, .csl, .tx 0x99, .csh, .dly 30] [] s t ∧
      t.txnIdx = 2 ∧ t.busyFlag = s.busyFlag ∧ t.devInfo = s.devInfo ∧ t.prtPass = s.prtPass ∧ SameSetup s t ∧
      t.transport = rest ∧ t.timer = later

/-- R143, R53, R144: the fifteen bytes read, in order, with DEVICE_ID 0x00; BUSY_FLAG from SR1. -/
def Obligations.LoadDeviceInfoCopiesTheBytesInOrder : Prop :=
  ∀ (s : State) (m j0 j1 j2 r1 r2 r3 : Byte) (uid : List Byte) (rest : List TransportAnswer), Ready s → uid.length = 8 →
    s.transport = .writeOk :: .readOk [m] :: .writeOk :: .readOk [j0, j1, j2] :: .writeOk :: .readOk uid :: .writeOk ::
      .readOk [r1] :: .writeOk :: .readOk [r2] :: .writeOk :: .readOk [r3] :: rest →
    ∃ t, exec .seqLoadDeviceInfo s = .next t ∧
      Succeeded 0x0103 (List.flatten [[Event.csl, .tx 0xAB, .tx 0x00, .tx 0x00, .tx 0x00, .rx m, .csh],
        [Event.csl, .tx 0x9F, .rx j0, .rx j1, .rx j2, .csh],
        [Event.csl, .tx 0x4B, .tx 0x00, .tx 0x00, .tx 0x00, .tx 0x00], uid.map Event.rx, [Event.csh],
        [Event.csl, .tx 0x05, .rx r1, .csh], [Event.csl, .tx 0x35, .rx r2, .csh], [Event.csl, .tx 0x15, .rx r3, .csh]]) [] s t ∧
      t.devInfo.toList = List.flatten [[m, 0x00, j0, j1, j2], uid, [r1, r2, r3]] ∧ t.busyFlag = r1.getLsbD 0 ∧
      t.prtPass = s.prtPass ∧ SameSetup s t ∧ t.transport = rest ∧ t.timer = s.timer

/-- R145: one SR1 read; the result is bit 0 of that byte. -/
def Obligations.IsBusyReportsBitZeroOfItsOwnRead : Prop :=
  ∀ (s : State) (b : Byte) (rest : List TransportAnswer), Ready s → s.transport = .writeOk :: .readOk [b] :: rest →
    ∃ t, exec .seqIsBusy s = .next t ∧ Succeeded 0x0104 [.csl, .tx 0x05, .rx b, .csh] [b] s t ∧
      t.busyFlag = b.getLsbD 0 ∧ t.devInfo = s.devInfo ∧ t.prtPass = s.prtPass ∧ SameSetup s t ∧
      t.transport = rest ∧ t.timer = s.timer

/-- R147: the comparison and the five response bytes, whatever the expected identity is. -/
def Obligations.PostResetTestComparesTheIdentity : Prop :=
  ∀ (s : State) (m j0 j1 j2 r1 : Byte) (rest : List TransportAnswer), Ready s →
    s.transport = .writeOk :: .readOk [m] :: .writeOk :: .readOk [j0, j1, j2] :: .writeOk :: .readOk [r1] :: rest →
    ∃ t, exec .seqPostResetTest s = .next t ∧
      Succeeded 0x0105 [.csl, .tx 0xAB, .tx 0x00, .tx 0x00, .tx 0x00, .rx m, .csh,
        .csl, .tx 0x9F, .rx j0, .rx j1, .rx j2, .csh, .csl, .tx 0x05, .rx r1, .csh] [m, j0, j1, j2, r1] s t ∧
      (t.prtPass = true ↔ m = Config.expMfr ∧ j1 = Config.expMemtype ∧ j2 = Config.expCap ∧ r1.getLsbD 0 = false) ∧
      t.busyFlag = r1.getLsbD 0 ∧ t.devInfo = s.devInfo ∧ SameSetup s t ∧ t.transport = rest ∧ t.timer = s.timer

/-- R148: a mismatch or a set busy bit is a result, not an error. -/
def Obligations.IdentityMismatchIsNotAnError : Prop :=
  ∀ (s : State) (m j0 j1 j2 r1 : Byte) (rest : List TransportAnswer), Ready s →
    s.transport = .writeOk :: .readOk [m] :: .writeOk :: .readOk [j0, j1, j2] :: .writeOk :: .readOk [r1] :: rest →
    (m ≠ Config.expMfr ∨ j1 ≠ Config.expMemtype ∨ j2 ≠ Config.expCap ∨ r1.getLsbD 0 = true) →
    ∃ t, exec .seqPostResetTest s = .next t ∧ t.seqState = .idle ∧ t.prtPass = false ∧ t.resultValid = true ∧ t.errCode = 0x00

/-- R144: whatever state LOAD_DEVICE_INFO succeeds from, submitted there or resumed after a hold, DEVICE_ID is 0x00 after it. -/
def Obligations.DeviceIdIsAlwaysZero : Prop :=
  (∀ s t : State, s.seqState = .idle → exec .seqLoadDeviceInfo s = .next t → t.resultValid = true → t.devInfo[1] = 0x00) ∧
  (∀ s t : State, s.seqState = .active → decode s.curReq = .request .seqLoadDeviceInfo → step s = .next t →
    t.seqState = .idle → t.resultValid = true → t.devInfo[1] = 0x00)

/-- R141: INIT, submitted or resumed after a hold, performs no transaction with the device. -/
def Obligations.InitPerformsNoTransaction : Prop :=
  ∀ s t : State, exec .seqInit s = .next t ∨
      (s.seqState = .active ∧ decode s.curReq = .request .seqInit ∧ step s = .next t) →
    ∃ es, t.trace = s.trace ++ es ∧ ∀ e ∈ es, e ≠ .csl ∧ e ≠ .csh ∧ (∀ b, e ≠ .tx b) ∧ (∀ b, e ≠ .rx b) ∧ ∀ us, e ≠ .dly us

/-! ### Faults -/

/-- R175 to R177, R103, R104, R106: a fault in any transaction of any request aborts it there: the earlier transactions stand on
the bus, chip-select goes HIGH, the fault is recorded, and no result register changes. -/
def Obligations.FaultInAnyTransactionAborts : Prop :=
  ∀ (i : Instr) (earlier : List (Descriptor × List Byte)) (row : Descriptor) (later : List Descriptor) (s : State)
    (rest : List TransportAnswer), Ready s → transactions i = earlier.map Prod.fst ++ row :: later →
    (∀ x ∈ earlier, x.2.length = x.1.readLen) →
    (∀ k, k ≤ row.writePhase.length → s.transport = answersOf earlier ++ .writeFault k :: rest →
      ∃ t, exec i s = .next t ∧
        Aborted (encode i) (List.flatten [eventsOf earlier, [Event.csl], (row.writePhase.take k).map Event.tx, [Event.fault .write, Event.csh]])
          earlier.length .write s t ∧
        SameResults s t ∧ SameSetup s t ∧ t.transport = rest ∧ t.timer = s.timer) ∧
    (0 < row.readLen → s.transport = answersOf earlier ++ .writeOk :: .readFault :: rest →
      ∃ t, exec i s = .next t ∧
        Aborted (encode i) (List.flatten [eventsOf earlier, [Event.csl], row.writePhase.map Event.tx, [Event.fault .read, Event.csh]])
          earlier.length .read s t ∧
        SameResults s t ∧ SameSetup s t ∧ t.transport = rest ∧ t.timer = s.timer)

/-- R176, R177: whatever happens, a request that does not succeed changes no result register but RESULT_VALID and ERR_*, and no step
that leaves RESULT_VALID 0 does. -/
def Obligations.NoPartialResults : Prop :=
  (∀ (i : Instr) (s t : State), exec i s = .next t → t.resultValid = false → SameResults s t) ∧
  (∀ s t : State, step s = .next t → t.resultValid = false → SameResults s t)

/-! ### Frames -/

/-- The CMD requests leave everything outside RESP, RESP_LEN, FLAGS and ERR_* unchanged, whatever their outcome (R120, R37). -/
def Obligations.CommandFrame : Prop :=
  ∀ (i : Instr) (s t : State), isCmd i = true → exec i s = .next t ∨ Resumes i s t →
    SameSetup s t ∧ t.devInfo = s.devInfo ∧ t.prtPass = s.prtPass ∧ (i ≠ .cmdReadSr1 → t.busyFlag = s.busyFlag) ∧
    (i ≠ .cmdReset → t.timer = s.timer) ∧ ∀ a, a < 0x10 ∨ 0x1D ≤ a → t.rsByte a = s.rsByte a

/-- RESET_SEQ and IS_BUSY have the same frame as a command (R142, R145, R202). -/
def Obligations.ResetSeqAndIsBusyFrame : Prop :=
  ∀ (i : Instr) (s t : State), i = .seqResetSeq ∨ i = .seqIsBusy → exec i s = .next t ∨ Resumes i s t →
    SameSetup s t ∧ t.devInfo = s.devInfo ∧ t.prtPass = s.prtPass ∧ (i = .seqResetSeq → t.busyFlag = s.busyFlag) ∧
    (i = .seqIsBusy → t.timer = s.timer) ∧ ∀ a, a < 0x10 ∨ 0x1D ≤ a → t.rsByte a = s.rsByte a

/-- LOAD_DEVICE_INFO also writes DEVINFO and no more (R143). -/
def Obligations.LoadDeviceInfoFrame : Prop :=
  ∀ s t : State, exec .seqLoadDeviceInfo s = .next t ∨ Resumes .seqLoadDeviceInfo s t →
    SameSetup s t ∧ t.prtPass = s.prtPass ∧ t.timer = s.timer ∧ ∀ a, 0x1D ≤ a → t.rsByte a = s.rsByte a

/-- POST_RESET_TEST also writes PRT_PASS and leaves DEVINFO (R147). -/
def Obligations.PostResetTestFrame : Prop :=
  ∀ s t : State, exec .seqPostResetTest s = .next t ∨ Resumes .seqPostResetTest s t →
    SameSetup s t ∧ t.devInfo = s.devInfo ∧ t.timer = s.timer ∧ ∀ a, a < 0x10 ∨ 0x1D ≤ a → t.rsByte a = s.rsByte a

/-- INIT leaves DEVINFO, BUSY_FLAG, PRT_PASS and every RS byte outside RESP, FLAGS, ERR_* and CLK_ACTUAL (R140). -/
def Obligations.InitFrame : Prop :=
  ∀ s t : State, exec .seqInit s = .next t ∨ Resumes .seqInit s t →
    t.devInfo = s.devInfo ∧ t.busyFlag = s.busyFlag ∧ t.prtPass = s.prtPass ∧ t.submissions = s.submissions ∧
    t.timer = s.timer ∧ ∀ a, a < 0x10 ∨ (0x1D ≤ a ∧ a < 0x20) ∨ 0x24 ≤ a → t.rsByte a = s.rsByte a

/-! ### Whole-machine rules -/

/-- R21: only INIT's commit writes CFG_STATE, and it writes READY. -/
def Obligations.OnlyInitCommitMakesReady : Prop :=
  State.reset.cfgState = .uninit ∧
  (∀ s, (commitResults .seqInit s).cfgState = .ready) ∧
  (∀ s t : State, agentStep s = some t → t.cfgState ≠ s.cfgState →
    s.cfgState = .uninit ∧ t.cfgState = .ready ∧ s.seqState = .active ∧ decode s.curReq = .request .seqInit ∧
    programSeqInit[s.upc.toNat]? = some .commit)

/-- R30, R33, R28, R32: which requests can change DEVINFO, PRT_PASS, CLK_ACTUAL and BUSY_FLAG, and only at their COMMIT. -/
def Obligations.OnlyTheNamedCommitsWriteResults : Prop :=
  ∀ s t : State, StateInv s → agentStep s = some t →
    ((t.devInfo ≠ s.devInfo ∨ t.prtPass ≠ s.prtPass ∨ t.clkActual ≠ s.clkActual ∨ t.busyFlag ≠ s.busyFlag) →
      s.seqState = .active) ∧
    (t.devInfo ≠ s.devInfo → decode s.curReq = .request .seqLoadDeviceInfo ∧ t.resultValid = true ∧ t.seqState = .idle) ∧
    (t.prtPass ≠ s.prtPass → decode s.curReq = .request .seqPostResetTest ∧ t.resultValid = true ∧ t.seqState = .idle) ∧
    (t.clkActual ≠ s.clkActual → decode s.curReq = .request .seqInit ∧ t.resultValid = true ∧ t.seqState = .idle) ∧
    (t.busyFlag ≠ s.busyFlag →
      (∃ i, decode s.curReq = .request i ∧
        (i = .cmdReadSr1 ∨ i = .seqIsBusy ∨ i = .seqLoadDeviceInfo ∨ i = .seqPostResetTest)) ∧
      t.busyFlag = s.stg[12].getLsbD 0 ∧ t.resultValid = true ∧ t.seqState = .idle)

/-- R207: a request that sent 0x99, submitted or resumed after a hold, reports success only after its DLY(30). -/
def Obligations.SettleDelayPrecedesCompletion : Prop :=
  (∀ (i : Instr) (s t : State), i = .cmdReset ∨ i = .seqResetSeq → s.seqState = .idle → exec i s = .next t →
    t.resultValid = true → ∃ es, t.trace = s.trace ++ es ++ [.tx 0x99, .csh, .dly 30]) ∧
  (∀ (i : Instr) (s t : State), i = .cmdReset ∨ i = .seqResetSeq → Resumes i s t →
    t.resultValid = true → ∃ es, t.trace = es ++ [.tx 0x99, .csh, .dly 30])

/-- R62: every step only appends to the trace. -/
def Obligations.TraceOnlyGrows : Prop :=
  (∀ s t : State, agentStep s = some t → ∃ es, t.trace = s.trace ++ es) ∧
  (∀ s t : State, step s = .next t → ∃ es, t.trace = s.trace ++ es)

/-! ### Result space and reset -/

/-- R36: the map of the result space, and that a Host read returns it. -/
def Obligations.ResultSpaceMap : Prop :=
  ∀ s : State,
    (∀ a, a ≤ 0xFF → s.hostRead a = .ok (s.rsByte a)) ∧
    (∀ k, (h : k < 16) → s.rsByte k = s.devInfo[k]) ∧ (∀ k, (h : k < 8) → s.rsByte (0x10 + k) = s.resp[k]) ∧
    s.rsByte 0x18 = s.respLen.setWidth 8 ∧ s.rsByte 0x19 = flagsByte s ∧ s.rsByte 0x1A = s.errCode ∧
    s.rsByte 0x1B = s.errTxn ∧ s.rsByte 0x1C = s.errPhase ∧
    (∀ a, 0x1D ≤ a → a ≤ 0x1F → s.rsByte a = 0x00) ∧
    (s.rsByte 0x23 ++ s.rsByte 0x22 ++ s.rsByte 0x21 ++ s.rsByte 0x20 : BitVec 32) = s.clkActual ∧
    (∀ a, 0x24 ≤ a → a ≤ 0xFF → s.rsByte a = 0x00)

/-- R38: the bits of the FLAGS byte, and its reset value. -/
def Obligations.FlagsByteBits : Prop :=
  (∀ s : State,
    (s.rsByte 0x19).getLsbD 0 = s.busyFlag ∧ (s.rsByte 0x19).getLsbD 1 = s.prtPass ∧
    (s.rsByte 0x19).getLsbD 2 = s.resultValid ∧ ((s.rsByte 0x19).getLsbD 3 = true ↔ s.cfgState = .ready) ∧
    ((s.rsByte 0x19).getLsbD 4 = true ↔ s.seqState = .active) ∧ (s.rsByte 0x19).getLsbD 5 = false ∧
    (s.rsByte 0x19).getLsbD 6 = false ∧ (s.rsByte 0x19).getLsbD 7 = false) ∧
  State.reset.rsByte 0x19 = 0x00

/-- R57: a multi-byte Host read is independent single-byte reads, each in the state of its own moment. R57 gives a read past 0xFF no
step; that a read which passes 0xFF answers a fault as a whole, earlier bytes included, is the model's choice: log entry 16. -/
def Obligations.MultiByteReadIsIndependentReads : Prop :=
  ∀ (ss : List State) (addr : Nat),
    (addr + ss.length ≤ 0x100 → ∃ bs, memRead ss addr = .ok bs ∧ bs.length = ss.length ∧
      ∀ k, (h : k < ss.length) → bs[k]? = some (ss[k].rsByte (addr + k))) ∧
    (ss ≠ [] → 0x100 < addr + ss.length → ∃ a, 0xFF < a ∧ memRead ss addr = .error (.outsideResultSpace a))

/-- R43: the values the spec gives for block reset (it gives none for STG[0..14] and STG_CLK). -/
def Obligations.ResetStateValues : Prop :=
  State.reset.cfgState = .uninit ∧ State.reset.seqState = .idle ∧ State.reset.curReq = 0x0000 ∧ State.reset.upc = 0 ∧
  State.reset.txnIdx = 0 ∧ State.reset.cs = .undriven ∧ State.reset.hold = .undriven ∧ State.reset.wp = .undriven ∧
  State.reset.busFmt = .unconfigured ∧ State.reset.clkActual = 0 ∧ State.reset.stgSr1v = false ∧
  State.reset.devInfo.toList = List.replicate 16 0x00 ∧ State.reset.resp.toList = List.replicate 8 0x00 ∧
  State.reset.respLen = 0 ∧ State.reset.busyFlag = false ∧ State.reset.prtPass = false ∧ State.reset.resultValid = false ∧
  State.reset.errCode = 0x00 ∧ State.reset.errTxn = 0 ∧ State.reset.errPhase = 0 ∧ State.reset.trace = []

/-! ### Invariants and headline results -/

/-- The invariant holds right after reset. -/
def Obligations.ResetMeetsStateInv : Prop := StateInv State.reset

/-- Every agent step, from every state that meets the invariant, keeps it. -/
def Obligations.AgentStepKeepsStateInv : Prop := ∀ s t : State, StateInv s → agentStep s = some t → StateInv t

/-- Every step of the machine, from every state that meets the invariant, keeps it. -/
def Obligations.StepKeepsStateInv : Prop := ∀ s t : State, StateInv s → step s = .next t → StateInv t

/-- R41, for every reachable state: an IDLE READY block has CS, HOLD and WP HIGH, and a READY block has CS LOW exactly between a
CSL and the next CSH. (R215 lets chip-select glitch during the first INIT, so the second clause is stated of a READY block: log
entry 7.) -/
def Obligations.PinsInEveryReachableState : Prop :=
  ∀ s : State, Reachable s →
    (s.cfgState = .ready → s.seqState = .idle → s.cs = .high ∧ s.hold = .high ∧ s.wp = .high) ∧
    (s.cfgState = .ready → s.seqState = .active → (s.cs = .low ↔ programPhase s.done ≠ .closed))

/-- R26: HOLD and WP move only in INIT, and are HIGH ever after. -/
def Obligations.HoldAndWriteProtectStayHigh : Prop :=
  State.reset.hold = .undriven ∧ State.reset.wp = .undriven ∧
  (∀ s t : State, agentStep s = some t → t.hold ≠ s.hold ∨ t.wp ≠ s.wp →
    s.seqState = .active ∧ decode s.curReq = .request .seqInit) ∧
  (∀ s : State, Reachable s → s.cfgState = .ready → s.hold = .high ∧ s.wp = .high)

/-- R106: the trace of every reachable state is well framed, and stands outside every window whenever the block is IDLE. -/
def Obligations.EveryReachableTraceIsFramed : Prop :=
  ∀ s : State, Reachable s → ∃ ph, tracePhase s.trace = some ph ∧ (s.seqState = .idle → ph = .closed)

/-- One step of the machine is a run of agent steps (at most one submission and 25 micro-ops) that ends with the block IDLE or
without a step (R100, R110, R171). That one step of the machine runs a whole request, of which this says how it is made of the spec's
steps, is the model's choice: log entry 8. -/
def Obligations.StepIsARunOfAgentSteps : Prop :=
  ∀ s t : State, step s = .next t →
    (∃ n, n ≤ 26 ∧ agentSteps n s = some t) ∧ (t.seqState = .idle ∨ blockStep t = none)

/-- R39: the result registers steer nothing: two states that differ only in them step to states that differ only in them, with the
same events. -/
def Obligations.ResultsNeverSteerTheBus : Prop :=
  ∀ s t : State, s.eraseResults = t.eraseResults →
    (∀ s' t', step s = .next s' → step t = .next t' → s'.eraseResults = t'.eraseResults) ∧
    (∀ s', agentStep s = some s' → ∃ t', agentStep t = some t' ∧ s'.eraseResults = t'.eraseResults)
end

