-- ==== Sys2Proof/Laws/State.lean ====
section
/-! SUPPORT. What each named update of the state does to each field: one equation per field per update. -/

namespace Sys2Proof.Machine

variable (s : State)

/-! ### State.emit -/

@[simp] theorem State.emit_cfgState (es : List Event) : (s.emit es).cfgState = s.cfgState := rfl
@[simp] theorem State.emit_seqState (es : List Event) : (s.emit es).seqState = s.seqState := rfl
@[simp] theorem State.emit_curReq (es : List Event) : (s.emit es).curReq = s.curReq := rfl
@[simp] theorem State.emit_upc (es : List Event) : (s.emit es).upc = s.upc := rfl
@[simp] theorem State.emit_txnIdx (es : List Event) : (s.emit es).txnIdx = s.txnIdx := rfl
@[simp] theorem State.emit_cs (es : List Event) : (s.emit es).cs = s.cs := rfl
@[simp] theorem State.emit_hold (es : List Event) : (s.emit es).hold = s.hold := rfl
@[simp] theorem State.emit_wp (es : List Event) : (s.emit es).wp = s.wp := rfl
@[simp] theorem State.emit_busFmt (es : List Event) : (s.emit es).busFmt = s.busFmt := rfl
@[simp] theorem State.emit_clkActual (es : List Event) : (s.emit es).clkActual = s.clkActual := rfl
@[simp] theorem State.emit_stg (es : List Event) : (s.emit es).stg = s.stg := rfl
@[simp] theorem State.emit_stgSr1v (es : List Event) : (s.emit es).stgSr1v = s.stgSr1v := rfl
@[simp] theorem State.emit_stgClk (es : List Event) : (s.emit es).stgClk = s.stgClk := rfl
@[simp] theorem State.emit_devInfo (es : List Event) : (s.emit es).devInfo = s.devInfo := rfl
@[simp] theorem State.emit_resp (es : List Event) : (s.emit es).resp = s.resp := rfl
@[simp] theorem State.emit_respLen (es : List Event) : (s.emit es).respLen = s.respLen := rfl
@[simp] theorem State.emit_busyFlag (es : List Event) : (s.emit es).busyFlag = s.busyFlag := rfl
@[simp] theorem State.emit_prtPass (es : List Event) : (s.emit es).prtPass = s.prtPass := rfl
@[simp] theorem State.emit_resultValid (es : List Event) : (s.emit es).resultValid = s.resultValid := rfl
@[simp] theorem State.emit_errCode (es : List Event) : (s.emit es).errCode = s.errCode := rfl
@[simp] theorem State.emit_errTxn (es : List Event) : (s.emit es).errTxn = s.errTxn := rfl
@[simp] theorem State.emit_errPhase (es : List Event) : (s.emit es).errPhase = s.errPhase := rfl
@[simp] theorem State.emit_trace (es : List Event) : (s.emit es).trace = s.trace ++ es := rfl
@[simp] theorem State.emit_submissions (es : List Event) : (s.emit es).submissions = s.submissions := rfl
@[simp] theorem State.emit_transport (es : List Event) : (s.emit es).transport = s.transport := rfl
@[simp] theorem State.emit_timer (es : List Event) : (s.emit es).timer = s.timer := rfl
@[simp] theorem State.emit_freeCount (es : List Event) : (s.emit es).freeCount = s.freeCount := rfl

/-! ### State.advance -/

@[simp] theorem State.advance_cfgState : s.advance.cfgState = s.cfgState := rfl
@[simp] theorem State.advance_seqState : s.advance.seqState = s.seqState := rfl
@[simp] theorem State.advance_curReq : s.advance.curReq = s.curReq := rfl
@[simp] theorem State.advance_upc : s.advance.upc = s.upc + 1 := rfl
@[simp] theorem State.advance_txnIdx : s.advance.txnIdx = s.txnIdx := rfl
@[simp] theorem State.advance_cs : s.advance.cs = s.cs := rfl
@[simp] theorem State.advance_hold : s.advance.hold = s.hold := rfl
@[simp] theorem State.advance_wp : s.advance.wp = s.wp := rfl
@[simp] theorem State.advance_busFmt : s.advance.busFmt = s.busFmt := rfl
@[simp] theorem State.advance_clkActual : s.advance.clkActual = s.clkActual := rfl
@[simp] theorem State.advance_stg : s.advance.stg = s.stg := rfl
@[simp] theorem State.advance_stgSr1v : s.advance.stgSr1v = s.stgSr1v := rfl
@[simp] theorem State.advance_stgClk : s.advance.stgClk = s.stgClk := rfl
@[simp] theorem State.advance_devInfo : s.advance.devInfo = s.devInfo := rfl
@[simp] theorem State.advance_resp : s.advance.resp = s.resp := rfl
@[simp] theorem State.advance_respLen : s.advance.respLen = s.respLen := rfl
@[simp] theorem State.advance_busyFlag : s.advance.busyFlag = s.busyFlag := rfl
@[simp] theorem State.advance_prtPass : s.advance.prtPass = s.prtPass := rfl
@[simp] theorem State.advance_resultValid : s.advance.resultValid = s.resultValid := rfl
@[simp] theorem State.advance_errCode : s.advance.errCode = s.errCode := rfl
@[simp] theorem State.advance_errTxn : s.advance.errTxn = s.errTxn := rfl
@[simp] theorem State.advance_errPhase : s.advance.errPhase = s.errPhase := rfl
@[simp] theorem State.advance_trace : s.advance.trace = s.trace := rfl
@[simp] theorem State.advance_submissions : s.advance.submissions = s.submissions := rfl
@[simp] theorem State.advance_transport : s.advance.transport = s.transport := rfl
@[simp] theorem State.advance_timer : s.advance.timer = s.timer := rfl
@[simp] theorem State.advance_freeCount : s.advance.freeCount = s.freeCount := rfl

/-! ### accept -/

@[simp] theorem accept_cfgState (w : ReqWord) : (accept w s).cfgState = s.cfgState := rfl
@[simp] theorem accept_seqState (w : ReqWord) : (accept w s).seqState = .active := rfl
@[simp] theorem accept_curReq (w : ReqWord) : (accept w s).curReq = w := rfl
@[simp] theorem accept_upc (w : ReqWord) : (accept w s).upc = 0 := rfl
@[simp] theorem accept_txnIdx (w : ReqWord) : (accept w s).txnIdx = 0 := rfl
@[simp] theorem accept_cs (w : ReqWord) : (accept w s).cs = s.cs := rfl
@[simp] theorem accept_hold (w : ReqWord) : (accept w s).hold = s.hold := rfl
@[simp] theorem accept_wp (w : ReqWord) : (accept w s).wp = s.wp := rfl
@[simp] theorem accept_busFmt (w : ReqWord) : (accept w s).busFmt = s.busFmt := rfl
@[simp] theorem accept_clkActual (w : ReqWord) : (accept w s).clkActual = s.clkActual := rfl
@[simp] theorem accept_stg (w : ReqWord) : (accept w s).stg = freshStg s.freeCount := rfl
@[simp] theorem accept_stgSr1v (w : ReqWord) : (accept w s).stgSr1v = false := rfl
@[simp] theorem accept_stgClk (w : ReqWord) : (accept w s).stgClk = Config.freeStgClk s.freeCount := rfl
@[simp] theorem accept_devInfo (w : ReqWord) : (accept w s).devInfo = s.devInfo := rfl
@[simp] theorem accept_resp (w : ReqWord) : (accept w s).resp = s.resp := rfl
@[simp] theorem accept_respLen (w : ReqWord) : (accept w s).respLen = s.respLen := rfl
@[simp] theorem accept_busyFlag (w : ReqWord) : (accept w s).busyFlag = s.busyFlag := rfl
@[simp] theorem accept_prtPass (w : ReqWord) : (accept w s).prtPass = s.prtPass := rfl
@[simp] theorem accept_resultValid (w : ReqWord) : (accept w s).resultValid = false := rfl
@[simp] theorem accept_errCode (w : ReqWord) : (accept w s).errCode = s.errCode := rfl
@[simp] theorem accept_errTxn (w : ReqWord) : (accept w s).errTxn = s.errTxn := rfl
@[simp] theorem accept_errPhase (w : ReqWord) : (accept w s).errPhase = s.errPhase := rfl
@[simp] theorem accept_trace (w : ReqWord) : (accept w s).trace = s.trace := rfl
@[simp] theorem accept_submissions (w : ReqWord) : (accept w s).submissions = s.submissions := rfl
@[simp] theorem accept_transport (w : ReqWord) : (accept w s).transport = s.transport := rfl
@[simp] theorem accept_timer (w : ReqWord) : (accept w s).timer = s.timer := rfl
@[simp] theorem accept_freeCount (w : ReqWord) : (accept w s).freeCount = s.freeCount + 1 := rfl

/-! ### reject -/

@[simp] theorem reject_cfgState (code : Byte) : (reject code s).cfgState = s.cfgState := rfl
@[simp] theorem reject_seqState (code : Byte) : (reject code s).seqState = s.seqState := rfl
@[simp] theorem reject_curReq (code : Byte) : (reject code s).curReq = s.curReq := rfl
@[simp] theorem reject_upc (code : Byte) : (reject code s).upc = s.upc := rfl
@[simp] theorem reject_txnIdx (code : Byte) : (reject code s).txnIdx = s.txnIdx := rfl
@[simp] theorem reject_cs (code : Byte) : (reject code s).cs = s.cs := rfl
@[simp] theorem reject_hold (code : Byte) : (reject code s).hold = s.hold := rfl
@[simp] theorem reject_wp (code : Byte) : (reject code s).wp = s.wp := rfl
@[simp] theorem reject_busFmt (code : Byte) : (reject code s).busFmt = s.busFmt := rfl
@[simp] theorem reject_clkActual (code : Byte) : (reject code s).clkActual = s.clkActual := rfl
@[simp] theorem reject_stg (code : Byte) : (reject code s).stg = s.stg := rfl
@[simp] theorem reject_stgSr1v (code : Byte) : (reject code s).stgSr1v = s.stgSr1v := rfl
@[simp] theorem reject_stgClk (code : Byte) : (reject code s).stgClk = s.stgClk := rfl
@[simp] theorem reject_devInfo (code : Byte) : (reject code s).devInfo = s.devInfo := rfl
@[simp] theorem reject_resp (code : Byte) : (reject code s).resp = s.resp := rfl
@[simp] theorem reject_respLen (code : Byte) : (reject code s).respLen = s.respLen := rfl
@[simp] theorem reject_busyFlag (code : Byte) : (reject code s).busyFlag = s.busyFlag := rfl
@[simp] theorem reject_prtPass (code : Byte) : (reject code s).prtPass = s.prtPass := rfl
@[simp] theorem reject_resultValid (code : Byte) : (reject code s).resultValid = false := rfl
@[simp] theorem reject_errCode (code : Byte) : (reject code s).errCode = code := rfl
@[simp] theorem reject_errTxn (code : Byte) : (reject code s).errTxn = 0 := rfl
@[simp] theorem reject_errPhase (code : Byte) : (reject code s).errPhase = 0 := rfl
@[simp] theorem reject_trace (code : Byte) : (reject code s).trace = s.trace := rfl
@[simp] theorem reject_submissions (code : Byte) : (reject code s).submissions = s.submissions := rfl
@[simp] theorem reject_transport (code : Byte) : (reject code s).transport = s.transport := rfl
@[simp] theorem reject_timer (code : Byte) : (reject code s).timer = s.timer := rfl
@[simp] theorem reject_freeCount (code : Byte) : (reject code s).freeCount = s.freeCount := rfl

/-! ### abort -/

@[simp] theorem abort_cfgState (ph : Phase) : (abort ph s).cfgState = s.cfgState := rfl
@[simp] theorem abort_seqState (ph : Phase) : (abort ph s).seqState = .idle := rfl
@[simp] theorem abort_curReq (ph : Phase) : (abort ph s).curReq = s.curReq := rfl
@[simp] theorem abort_upc (ph : Phase) : (abort ph s).upc = s.upc := rfl
@[simp] theorem abort_txnIdx (ph : Phase) : (abort ph s).txnIdx = s.txnIdx := rfl
@[simp] theorem abort_cs (ph : Phase) : (abort ph s).cs = .high := rfl
@[simp] theorem abort_hold (ph : Phase) : (abort ph s).hold = s.hold := rfl
@[simp] theorem abort_wp (ph : Phase) : (abort ph s).wp = s.wp := rfl
@[simp] theorem abort_busFmt (ph : Phase) : (abort ph s).busFmt = s.busFmt := rfl
@[simp] theorem abort_clkActual (ph : Phase) : (abort ph s).clkActual = s.clkActual := rfl
@[simp] theorem abort_stg (ph : Phase) : (abort ph s).stg = s.stg := rfl
@[simp] theorem abort_stgSr1v (ph : Phase) : (abort ph s).stgSr1v = s.stgSr1v := rfl
@[simp] theorem abort_stgClk (ph : Phase) : (abort ph s).stgClk = s.stgClk := rfl
@[simp] theorem abort_devInfo (ph : Phase) : (abort ph s).devInfo = s.devInfo := rfl
@[simp] theorem abort_resp (ph : Phase) : (abort ph s).resp = s.resp := rfl
@[simp] theorem abort_respLen (ph : Phase) : (abort ph s).respLen = s.respLen := rfl
@[simp] theorem abort_busyFlag (ph : Phase) : (abort ph s).busyFlag = s.busyFlag := rfl
@[simp] theorem abort_prtPass (ph : Phase) : (abort ph s).prtPass = s.prtPass := rfl
@[simp] theorem abort_resultValid (ph : Phase) : (abort ph s).resultValid = false := rfl
@[simp] theorem abort_errCode (ph : Phase) : (abort ph s).errCode = errTransportFault := rfl
@[simp] theorem abort_errTxn (ph : Phase) : (abort ph s).errTxn = s.txnIdx.setWidth 8 := rfl
@[simp] theorem abort_errPhase (ph : Phase) : (abort ph s).errPhase = phaseCode ph := rfl
@[simp] theorem abort_trace (ph : Phase) : (abort ph s).trace = s.trace ++ [.fault ph, .csh] := rfl
@[simp] theorem abort_submissions (ph : Phase) : (abort ph s).submissions = s.submissions := rfl
@[simp] theorem abort_transport (ph : Phase) : (abort ph s).transport = s.transport := rfl
@[simp] theorem abort_timer (ph : Phase) : (abort ph s).timer = s.timer := rfl
@[simp] theorem abort_freeCount (ph : Phase) : (abort ph s).freeCount = s.freeCount := rfl

/-! ### finishCommit -/

@[simp] theorem finishCommit_cfgState : (finishCommit s).cfgState = s.cfgState := rfl
@[simp] theorem finishCommit_seqState : (finishCommit s).seqState = .idle := rfl
@[simp] theorem finishCommit_curReq : (finishCommit s).curReq = s.curReq := rfl
@[simp] theorem finishCommit_upc : (finishCommit s).upc = s.upc := rfl
@[simp] theorem finishCommit_txnIdx : (finishCommit s).txnIdx = s.txnIdx := rfl
@[simp] theorem finishCommit_cs : (finishCommit s).cs = s.cs := rfl
@[simp] theorem finishCommit_hold : (finishCommit s).hold = s.hold := rfl
@[simp] theorem finishCommit_wp : (finishCommit s).wp = s.wp := rfl
@[simp] theorem finishCommit_busFmt : (finishCommit s).busFmt = s.busFmt := rfl
@[simp] theorem finishCommit_clkActual : (finishCommit s).clkActual = s.clkActual := rfl
@[simp] theorem finishCommit_stg : (finishCommit s).stg = s.stg := rfl
@[simp] theorem finishCommit_stgSr1v : (finishCommit s).stgSr1v = s.stgSr1v := rfl
@[simp] theorem finishCommit_stgClk : (finishCommit s).stgClk = s.stgClk := rfl
@[simp] theorem finishCommit_devInfo : (finishCommit s).devInfo = s.devInfo := rfl
@[simp] theorem finishCommit_resp : (finishCommit s).resp = s.resp := rfl
@[simp] theorem finishCommit_respLen : (finishCommit s).respLen = s.respLen := rfl
@[simp] theorem finishCommit_busyFlag : (finishCommit s).busyFlag = if s.stgSr1v then busyBit (s.stgAt 12) else s.busyFlag := rfl
@[simp] theorem finishCommit_prtPass : (finishCommit s).prtPass = s.prtPass := rfl
@[simp] theorem finishCommit_resultValid : (finishCommit s).resultValid = true := rfl
@[simp] theorem finishCommit_errCode : (finishCommit s).errCode = 0x00 := rfl
@[simp] theorem finishCommit_errTxn : (finishCommit s).errTxn = 0 := rfl
@[simp] theorem finishCommit_errPhase : (finishCommit s).errPhase = 0 := rfl
@[simp] theorem finishCommit_trace : (finishCommit s).trace = s.trace := rfl
@[simp] theorem finishCommit_submissions : (finishCommit s).submissions = s.submissions := rfl
@[simp] theorem finishCommit_transport : (finishCommit s).transport = s.transport := rfl
@[simp] theorem finishCommit_timer : (finishCommit s).timer = s.timer := rfl
@[simp] theorem finishCommit_freeCount : (finishCommit s).freeCount = s.freeCount := rfl

/-! ### State.setResp -/

@[simp] theorem State.setResp_cfgState (b : List Byte) : (s.setResp b).cfgState = s.cfgState := rfl
@[simp] theorem State.setResp_seqState (b : List Byte) : (s.setResp b).seqState = s.seqState := rfl
@[simp] theorem State.setResp_curReq (b : List Byte) : (s.setResp b).curReq = s.curReq := rfl
@[simp] theorem State.setResp_upc (b : List Byte) : (s.setResp b).upc = s.upc := rfl
@[simp] theorem State.setResp_txnIdx (b : List Byte) : (s.setResp b).txnIdx = s.txnIdx := rfl
@[simp] theorem State.setResp_cs (b : List Byte) : (s.setResp b).cs = s.cs := rfl
@[simp] theorem State.setResp_hold (b : List Byte) : (s.setResp b).hold = s.hold := rfl
@[simp] theorem State.setResp_wp (b : List Byte) : (s.setResp b).wp = s.wp := rfl
@[simp] theorem State.setResp_busFmt (b : List Byte) : (s.setResp b).busFmt = s.busFmt := rfl
@[simp] theorem State.setResp_clkActual (b : List Byte) : (s.setResp b).clkActual = s.clkActual := rfl
@[simp] theorem State.setResp_stg (b : List Byte) : (s.setResp b).stg = s.stg := rfl
@[simp] theorem State.setResp_stgSr1v (b : List Byte) : (s.setResp b).stgSr1v = s.stgSr1v := rfl
@[simp] theorem State.setResp_stgClk (b : List Byte) : (s.setResp b).stgClk = s.stgClk := rfl
@[simp] theorem State.setResp_devInfo (b : List Byte) : (s.setResp b).devInfo = s.devInfo := rfl
@[simp] theorem State.setResp_resp (b : List Byte) : (s.setResp b).resp = #v[b.getD 0 0x00, b.getD 1 0x00, b.getD 2 0x00, b.getD 3 0x00, b.getD 4 0x00, b.getD 5 0x00, b.getD 6 0x00, b.getD 7 0x00] := rfl
@[simp] theorem State.setResp_respLen (b : List Byte) : (s.setResp b).respLen = BitVec.ofNat 4 b.length := rfl
@[simp] theorem State.setResp_busyFlag (b : List Byte) : (s.setResp b).busyFlag = s.busyFlag := rfl
@[simp] theorem State.setResp_prtPass (b : List Byte) : (s.setResp b).prtPass = s.prtPass := rfl
@[simp] theorem State.setResp_resultValid (b : List Byte) : (s.setResp b).resultValid = s.resultValid := rfl
@[simp] theorem State.setResp_errCode (b : List Byte) : (s.setResp b).errCode = s.errCode := rfl
@[simp] theorem State.setResp_errTxn (b : List Byte) : (s.setResp b).errTxn = s.errTxn := rfl
@[simp] theorem State.setResp_errPhase (b : List Byte) : (s.setResp b).errPhase = s.errPhase := rfl
@[simp] theorem State.setResp_trace (b : List Byte) : (s.setResp b).trace = s.trace := rfl
@[simp] theorem State.setResp_submissions (b : List Byte) : (s.setResp b).submissions = s.submissions := rfl
@[simp] theorem State.setResp_transport (b : List Byte) : (s.setResp b).transport = s.transport := rfl
@[simp] theorem State.setResp_timer (b : List Byte) : (s.setResp b).timer = s.timer := rfl
@[simp] theorem State.setResp_freeCount (b : List Byte) : (s.setResp b).freeCount = s.freeCount := rfl

/-! ### State.setLevel -/

@[simp] theorem State.setLevel_cfgState (p : Pin) (lvl : Level) : (s.setLevel p lvl).cfgState = s.cfgState := by cases p <;> rfl
@[simp] theorem State.setLevel_seqState (p : Pin) (lvl : Level) : (s.setLevel p lvl).seqState = s.seqState := by cases p <;> rfl
@[simp] theorem State.setLevel_curReq (p : Pin) (lvl : Level) : (s.setLevel p lvl).curReq = s.curReq := by cases p <;> rfl
@[simp] theorem State.setLevel_upc (p : Pin) (lvl : Level) : (s.setLevel p lvl).upc = s.upc := by cases p <;> rfl
@[simp] theorem State.setLevel_txnIdx (p : Pin) (lvl : Level) : (s.setLevel p lvl).txnIdx = s.txnIdx := by cases p <;> rfl
theorem State.setLevel_cs (p : Pin) (lvl : Level) : (s.setLevel p lvl).cs = if p = .cs then lvl else s.cs := by
  cases p <;> rfl
theorem State.setLevel_hold (p : Pin) (lvl : Level) : (s.setLevel p lvl).hold = if p = .hold then lvl else s.hold := by
  cases p <;> rfl
theorem State.setLevel_wp (p : Pin) (lvl : Level) : (s.setLevel p lvl).wp = if p = .wp then lvl else s.wp := by
  cases p <;> rfl
@[simp] theorem State.setLevel_busFmt (p : Pin) (lvl : Level) : (s.setLevel p lvl).busFmt = s.busFmt := by cases p <;> rfl
@[simp] theorem State.setLevel_clkActual (p : Pin) (lvl : Level) : (s.setLevel p lvl).clkActual = s.clkActual := by cases p <;> rfl
@[simp] theorem State.setLevel_stg (p : Pin) (lvl : Level) : (s.setLevel p lvl).stg = s.stg := by cases p <;> rfl
@[simp] theorem State.setLevel_stgSr1v (p : Pin) (lvl : Level) : (s.setLevel p lvl).stgSr1v = s.stgSr1v := by cases p <;> rfl
@[simp] theorem State.setLevel_stgClk (p : Pin) (lvl : Level) : (s.setLevel p lvl).stgClk = s.stgClk := by cases p <;> rfl
@[simp] theorem State.setLevel_devInfo (p : Pin) (lvl : Level) : (s.setLevel p lvl).devInfo = s.devInfo := by cases p <;> rfl
@[simp] theorem State.setLevel_resp (p : Pin) (lvl : Level) : (s.setLevel p lvl).resp = s.resp := by cases p <;> rfl
@[simp] theorem State.setLevel_respLen (p : Pin) (lvl : Level) : (s.setLevel p lvl).respLen = s.respLen := by cases p <;> rfl
@[simp] theorem State.setLevel_busyFlag (p : Pin) (lvl : Level) : (s.setLevel p lvl).busyFlag = s.busyFlag := by cases p <;> rfl
@[simp] theorem State.setLevel_prtPass (p : Pin) (lvl : Level) : (s.setLevel p lvl).prtPass = s.prtPass := by cases p <;> rfl
@[simp] theorem State.setLevel_resultValid (p : Pin) (lvl : Level) : (s.setLevel p lvl).resultValid = s.resultValid := by cases p <;> rfl
@[simp] theorem State.setLevel_errCode (p : Pin) (lvl : Level) : (s.setLevel p lvl).errCode = s.errCode := by cases p <;> rfl
@[simp] theorem State.setLevel_errTxn (p : Pin) (lvl : Level) : (s.setLevel p lvl).errTxn = s.errTxn := by cases p <;> rfl
@[simp] theorem State.setLevel_errPhase (p : Pin) (lvl : Level) : (s.setLevel p lvl).errPhase = s.errPhase := by cases p <;> rfl
@[simp] theorem State.setLevel_trace (p : Pin) (lvl : Level) : (s.setLevel p lvl).trace = s.trace := by cases p <;> rfl
@[simp] theorem State.setLevel_submissions (p : Pin) (lvl : Level) : (s.setLevel p lvl).submissions = s.submissions := by cases p <;> rfl
@[simp] theorem State.setLevel_transport (p : Pin) (lvl : Level) : (s.setLevel p lvl).transport = s.transport := by cases p <;> rfl
@[simp] theorem State.setLevel_timer (p : Pin) (lvl : Level) : (s.setLevel p lvl).timer = s.timer := by cases p <;> rfl
@[simp] theorem State.setLevel_freeCount (p : Pin) (lvl : Level) : (s.setLevel p lvl).freeCount = s.freeCount := by cases p <;> rfl

/-! ### driveOutputs -/

@[simp] theorem driveOutputs_cfgState (n : Nat) (ps : List Pin) : (driveOutputs n ps s).cfgState = s.cfgState := by
  induction ps generalizing s with
  | nil => rfl
  | cons p ps ih => simp only [driveOutputs, ih]; split <;> simp
@[simp] theorem driveOutputs_seqState (n : Nat) (ps : List Pin) : (driveOutputs n ps s).seqState = s.seqState := by
  induction ps generalizing s with
  | nil => rfl
  | cons p ps ih => simp only [driveOutputs, ih]; split <;> simp
@[simp] theorem driveOutputs_curReq (n : Nat) (ps : List Pin) : (driveOutputs n ps s).curReq = s.curReq := by
  induction ps generalizing s with
  | nil => rfl
  | cons p ps ih => simp only [driveOutputs, ih]; split <;> simp
@[simp] theorem driveOutputs_upc (n : Nat) (ps : List Pin) : (driveOutputs n ps s).upc = s.upc := by
  induction ps generalizing s with
  | nil => rfl
  | cons p ps ih => simp only [driveOutputs, ih]; split <;> simp
@[simp] theorem driveOutputs_txnIdx (n : Nat) (ps : List Pin) : (driveOutputs n ps s).txnIdx = s.txnIdx := by
  induction ps generalizing s with
  | nil => rfl
  | cons p ps ih => simp only [driveOutputs, ih]; split <;> simp
@[simp] theorem driveOutputs_busFmt (n : Nat) (ps : List Pin) : (driveOutputs n ps s).busFmt = s.busFmt := by
  induction ps generalizing s with
  | nil => rfl
  | cons p ps ih => simp only [driveOutputs, ih]; split <;> simp
@[simp] theorem driveOutputs_clkActual (n : Nat) (ps : List Pin) : (driveOutputs n ps s).clkActual = s.clkActual := by
  induction ps generalizing s with
  | nil => rfl
  | cons p ps ih => simp only [driveOutputs, ih]; split <;> simp
@[simp] theorem driveOutputs_stg (n : Nat) (ps : List Pin) : (driveOutputs n ps s).stg = s.stg := by
  induction ps generalizing s with
  | nil => rfl
  | cons p ps ih => simp only [driveOutputs, ih]; split <;> simp
@[simp] theorem driveOutputs_stgSr1v (n : Nat) (ps : List Pin) : (driveOutputs n ps s).stgSr1v = s.stgSr1v := by
  induction ps generalizing s with
  | nil => rfl
  | cons p ps ih => simp only [driveOutputs, ih]; split <;> simp
@[simp] theorem driveOutputs_stgClk (n : Nat) (ps : List Pin) : (driveOutputs n ps s).stgClk = s.stgClk := by
  induction ps generalizing s with
  | nil => rfl
  | cons p ps ih => simp only [driveOutputs, ih]; split <;> simp
@[simp] theorem driveOutputs_devInfo (n : Nat) (ps : List Pin) : (driveOutputs n ps s).devInfo = s.devInfo := by
  induction ps generalizing s with
  | nil => rfl
  | cons p ps ih => simp only [driveOutputs, ih]; split <;> simp
@[simp] theorem driveOutputs_resp (n : Nat) (ps : List Pin) : (driveOutputs n ps s).resp = s.resp := by
  induction ps generalizing s with
  | nil => rfl
  | cons p ps ih => simp only [driveOutputs, ih]; split <;> simp
@[simp] theorem driveOutputs_respLen (n : Nat) (ps : List Pin) : (driveOutputs n ps s).respLen = s.respLen := by
  induction ps generalizing s with
  | nil => rfl
  | cons p ps ih => simp only [driveOutputs, ih]; split <;> simp
@[simp] theorem driveOutputs_busyFlag (n : Nat) (ps : List Pin) : (driveOutputs n ps s).busyFlag = s.busyFlag := by
  induction ps generalizing s with
  | nil => rfl
  | cons p ps ih => simp only [driveOutputs, ih]; split <;> simp
@[simp] theorem driveOutputs_prtPass (n : Nat) (ps : List Pin) : (driveOutputs n ps s).prtPass = s.prtPass := by
  induction ps generalizing s with
  | nil => rfl
  | cons p ps ih => simp only [driveOutputs, ih]; split <;> simp
@[simp] theorem driveOutputs_resultValid (n : Nat) (ps : List Pin) : (driveOutputs n ps s).resultValid = s.resultValid := by
  induction ps generalizing s with
  | nil => rfl
  | cons p ps ih => simp only [driveOutputs, ih]; split <;> simp
@[simp] theorem driveOutputs_errCode (n : Nat) (ps : List Pin) : (driveOutputs n ps s).errCode = s.errCode := by
  induction ps generalizing s with
  | nil => rfl
  | cons p ps ih => simp only [driveOutputs, ih]; split <;> simp
@[simp] theorem driveOutputs_errTxn (n : Nat) (ps : List Pin) : (driveOutputs n ps s).errTxn = s.errTxn := by
  induction ps generalizing s with
  | nil => rfl
  | cons p ps ih => simp only [driveOutputs, ih]; split <;> simp
@[simp] theorem driveOutputs_errPhase (n : Nat) (ps : List Pin) : (driveOutputs n ps s).errPhase = s.errPhase := by
  induction ps generalizing s with
  | nil => rfl
  | cons p ps ih => simp only [driveOutputs, ih]; split <;> simp
@[simp] theorem driveOutputs_trace (n : Nat) (ps : List Pin) : (driveOutputs n ps s).trace = s.trace := by
  induction ps generalizing s with
  | nil => rfl
  | cons p ps ih => simp only [driveOutputs, ih]; split <;> simp
@[simp] theorem driveOutputs_submissions (n : Nat) (ps : List Pin) : (driveOutputs n ps s).submissions = s.submissions := by
  induction ps generalizing s with
  | nil => rfl
  | cons p ps ih => simp only [driveOutputs, ih]; split <;> simp
@[simp] theorem driveOutputs_transport (n : Nat) (ps : List Pin) : (driveOutputs n ps s).transport = s.transport := by
  induction ps generalizing s with
  | nil => rfl
  | cons p ps ih => simp only [driveOutputs, ih]; split <;> simp
@[simp] theorem driveOutputs_timer (n : Nat) (ps : List Pin) : (driveOutputs n ps s).timer = s.timer := by
  induction ps generalizing s with
  | nil => rfl
  | cons p ps ih => simp only [driveOutputs, ih]; split <;> simp
@[simp] theorem driveOutputs_freeCount (n : Nat) (ps : List Pin) : (driveOutputs n ps s).freeCount = s.freeCount := by
  induction ps generalizing s with
  | nil => rfl
  | cons p ps ih => simp only [driveOutputs, ih]; split <;> simp

end Sys2Proof.Machine
end

