-- ==== Sys2Proof/Laws/Ops.lean ====
section
/-! SUPPORT. What the shared operations can do, said once: the micro-op step, the run of a micro-program, a submitted request, the
staging buffer. Later proofs cite these and unfold nothing. -/

namespace Sys2Proof.Machine

/-! ### Staging -/

/-- Staging `d` at `slot` writes those slots and no other (R53). -/
theorem stageBytes_getElem (stg : Vector Byte 15) (slot : Nat) (d : List Byte) (j : Nat) (hj : j < 15) :
    (stageBytes stg slot d)[j] = if slot ≤ j ∧ j < slot + d.length then d.getD (j - slot) 0 else stg[j] := by
  induction d generalizing stg slot with
  | nil => simp [stageBytes]
  | cons b d ih =>
    rw [stageBytes, ih]
    by_cases h1 : slot = j
    · subst h1; simp
    · by_cases h2 : slot + 1 ≤ j ∧ j < slot + 1 + d.length
      · have : j - slot = (j - (slot + 1)) + 1 := by omega
        rw [if_pos h2, if_pos (by simp; omega), this]; simp
      · rw [if_neg h2, if_neg (by simp; omega), Vector.getElem_setIfInBounds, if_neg h1]

/-- `stgAt` inside the buffer is the slot. -/
theorem State.stgAt_lt (s : State) (k : Nat) (h : k < 15) : s.stgAt k = s.stg[k] := by
  simp [State.stgAt, h]

/-! ### Pin levels -/

/-- Setting a manual pin changes that pin's level and no other. -/
theorem State.level_setLevel (s : State) (p q : Pin) (lvl : Level) :
    (s.setLevel p lvl).level q = if q = p ∧ p.manual = true then lvl else s.level q := by
  cases p <;> cases q <;> rfl

/-- `OUTEN` moves exactly the undriven manual pins it names, each to LOW or HIGH (R140). -/
theorem driveOutputs_level (n : Nat) (ps : List Pin) (s : State) (q : Pin) :
    (driveOutputs n ps s).level q =
      if q ∈ ps ∧ q.manual = true ∧ s.level q = .undriven then (if Config.freePinHigh n q then .high else .low)
      else s.level q := by
  induction ps generalizing s with
  | nil => simp [driveOutputs]
  | cons p ps ih =>
    rw [driveOutputs, ih]
    by_cases hu : s.level p = .undriven
    · rw [if_pos hu, State.level_setLevel]
      by_cases hq : q = p
      · subst hq
        cases hm : q.manual <;> simp [hu]
      · simp [hq]
    · rw [if_neg hu]
      by_cases hq : q = p
      · subst hq; simp [hu]
      · simp [hq]

/-! ### The micro-op step -/

/-- Everything a micro-op step can do (R100, R102 to R105, R108, R111, R140). -/
theorem microStep_cases {cr : State → State} {op : MicroOp} {s t : State} (h : microStep cr op s = some t) :
    (op = .csl ∧ s.cs = .high ∧ t = ({ s with cs := .low }.emit [.csl]).advance) ∨
    (∃ W rest, op = .wr W ∧ s.transport = .writeOk :: rest ∧ t = ({ s with transport := rest }.emit (W.map .tx)).advance) ∨
    (∃ W k rest, op = .wr W ∧ k ≤ W.length ∧ s.transport = .writeFault k :: rest ∧
      t = abort .write ({ s with transport := rest }.emit ((W.take k).map .tx))) ∨
    (∃ n slot d rest, op = .rd n slot ∧ d.length = n ∧ s.transport = .readOk d :: rest ∧
      t = ({ s with transport := rest, stg := stageBytes s.stg slot d,
                    stgSr1v := s.stgSr1v || slot == 12 }.emit (d.map .rx)).advance) ∨
    (∃ n slot rest, op = .rd n slot ∧ s.transport = .readFault :: rest ∧ t = abort .read { s with transport := rest }) ∨
    (op = .csh ∧ t = ({ s with cs := .high, txnIdx := s.txnIdx + 1 }.emit [.csh]).advance) ∨
    (∃ us u rest, op = .dly us ∧ us ≤ u ∧ s.timer = u :: rest ∧ t = ({ s with timer := rest }.emit [.dly us]).advance) ∨
    (∃ hz a rest, op = .cfg hz ∧ s.transport = .rate a :: rest ∧
      t = ({ s with transport := rest, stgClk := a }.emit [.cfg (.configure hz a)]).advance) ∨
    (op = .fmt ∧ t = ({ s with busFmt := busFormat }.emit [.cfg .setFormat]).advance) ∨
    (∃ p, op = .pinfn p ∧ t = (s.emit [.cfg (.assignBusFunction p)]).advance) ∨
    (∃ ps, op = .outen ps ∧
      t = ({ driveOutputs s.freeCount ps s with freeCount := s.freeCount + 1 }.emit [.cfg (.configureAsOutput ps)]).advance) ∨
    (∃ p lvl, op = .set p lvl ∧ t = ((s.setLevel p lvl).emit [.pin p lvl]).advance) ∨
    (op = .commit ∧ t = finishCommit (cr s)) := by
  cases op <;> simp only [microStep, writePhase, readPhase] at h
  case csl => split at h <;> simp_all
  case wr W => split at h <;> simp_all
  case rd n slot =>
    split at h
    · split at h <;> simp_all
    · simp_all
    · simp at h
  case dly us =>
    split at h
    · split at h <;> simp_all
    · simp at h
  case cfg hz => split at h <;> simp_all
  all_goals simp_all

/-- A micro-op other than `COMMIT` that ends the request is a fault, which aborts it (R100, R109). -/
theorem microStep_seqState {cr : State → State} {op : MicroOp} {s t : State} (h : microStep cr op s = some t)
    (hc : op ≠ .commit) (ha : s.seqState = .active) :
    (t.seqState = .active ∧ t.upc = s.upc + 1) ∨ (t.seqState = .idle ∧ t.upc = s.upc ∧ t.resultValid = false) := by
  rcases microStep_cases h with h | h | h | h | h | h | h | h | h | h | h | h | h
  all_goals first
    | (obtain ⟨_, _, rfl⟩ := h) | (obtain ⟨_, rfl⟩ := h) | (obtain ⟨_, _, _, _, rfl⟩ := h) | (obtain ⟨_, _, _, rfl⟩ := h)
    | (obtain ⟨_, _, _, _, _, _, rfl⟩ := h) | (obtain ⟨_, _, _, _, _, _, _, rfl⟩ := h)
  all_goals simp_all

end Sys2Proof.Machine
end

