-- ==== Sys2Proof/Laws/Block.lean ====
section
/-! SUPPORT. The request level: a micro-program's run, what a submitted request is, and facts about the thirteen micro-programs. -/

namespace Sys2Proof.Machine

/-! ### Runs -/

/-- A property every micro-op step of the list keeps holds after its run. -/
theorem runOps_keeps {P : State → Prop} {cr : State → State} {ops : List MicroOp} {s : State}
    (hstep : ∀ op ∈ ops, ∀ u v, u.seqState = .active → P u → microStep cr op u = some v → P v)
    (ha : s.seqState = .active) (hs : P s) : P (runOps cr ops s) := by
  induction ops generalizing s with
  | nil => exact hs
  | cons op ops ih =>
    rw [runOps]
    cases h : microStep cr op s with
    | none => exact hs
    | some s' =>
      have h' := hstep op (by simp) s s' ha hs h
      cases hq : s'.seqState with
      | idle => simpa [hq] using h'
      | active => simpa [hq] using ih (fun o ho => hstep o (by simp [ho])) hq h'

/-- A run stops at once where the first micro-op has no step. -/
theorem runOps_none {cr : State → State} {op : MicroOp} {ops : List MicroOp} {s : State}
    (h : microStep cr op s = none) : runOps cr (op :: ops) s = s := by rw [runOps, h]

/-- A run ends where a micro-op leaves the block IDLE. -/
theorem runOps_idle {cr : State → State} {op : MicroOp} {ops : List MicroOp} {s t : State}
    (h : microStep cr op s = some t) (hi : t.seqState = .idle) : runOps cr (op :: ops) s = t := by rw [runOps, h]; simp [hi]

/-- A run goes on where a micro-op leaves the block ACTIVE. -/
theorem runOps_active {cr : State → State} {op : MicroOp} {ops : List MicroOp} {s t : State}
    (h : microStep cr op s = some t) (hi : t.seqState = .active) : runOps cr (op :: ops) s = runOps cr ops t := by
  rw [runOps, h]; simp [hi]

/-! ### Requests -/

/-- Every meaning is the shared request operation on the request's own word, micro-program and `commit_results`. -/
theorem exec_eq (i : Instr) (s : State) :
    exec i s = .next (runRequest (encode i) (microProgram i) (commitResults i) s) := by cases i <;> rfl

/-- The word of a request is INIT's word only for INIT. -/
theorem encode_eq_initWord {i : Instr} : encode i = initWord ↔ i = .seqInit := by cases i <;> decide

/-- What a submitted request can do: nothing while ACTIVE, a rejection before INIT, or an accepted run (R171, R172, R174). -/
theorem exec_cases {i : Instr} {s t : State} (h : exec i s = .next t) :
    (s.seqState = .active ∧ t = s) ∨
    (s.seqState = .idle ∧ s.cfgState = .uninit ∧ i ≠ .seqInit ∧ t = reject errNotInitialized s) ∨
    (s.seqState = .idle ∧ (s.cfgState = .ready ∨ i = .seqInit) ∧
      t = runOps (commitResults i) (microProgram i) (accept (encode i) s)) := by
  rw [exec_eq] at h
  obtain rfl : runRequest (encode i) (microProgram i) (commitResults i) s = t := by simpa using h
  unfold runRequest
  cases hq : s.seqState with
  | active => simp
  | idle =>
    by_cases hp : s.cfgState = .uninit ∧ encode i ≠ initWord
    · have hi : i ≠ .seqInit := fun e => hp.2 (encode_eq_initWord.2 e)
      simp [present, hp, hq, hi]
    · have : s.cfgState = .ready ∨ i = .seqInit := by
        cases hc : s.cfgState with
        | ready => simp
        | uninit => exact .inr (encode_eq_initWord.1 (by simpa [hc] using hp))
      simp [present, hp, this]

/-- An accepted request is the run of its micro-program. -/
theorem exec_accepted {i : Instr} {s : State} (hi : s.seqState = .idle) (hr : s.cfgState = .ready ∨ i = .seqInit) :
    exec i s = .next (runOps (commitResults i) (microProgram i) (accept (encode i) s)) := by
  have hp : ¬(s.cfgState = .uninit ∧ encode i ≠ initWord) := by
    rintro ⟨hu, hw⟩
    rcases hr with h | h
    · simp [h] at hu
    · exact hw (encode_eq_initWord.2 h)
  simp [exec_eq, runRequest, hi, present, hp]

/-! ### `commit_results` -/

/-- What every `commit_results` leaves alone: everything but the result registers, CLK_ACTUAL and CFG_STATE (R108). -/
theorem commitResults_frame (i : Instr) (s : State) :
    (commitResults i s).seqState = s.seqState ∧ (commitResults i s).curReq = s.curReq ∧ (commitResults i s).upc = s.upc ∧
    (commitResults i s).txnIdx = s.txnIdx ∧ (commitResults i s).cs = s.cs ∧ (commitResults i s).hold = s.hold ∧
    (commitResults i s).wp = s.wp ∧ (commitResults i s).busFmt = s.busFmt ∧ (commitResults i s).stg = s.stg ∧
    (commitResults i s).stgSr1v = s.stgSr1v ∧ (commitResults i s).trace = s.trace ∧
    (commitResults i s).submissions = s.submissions ∧ (commitResults i s).transport = s.transport ∧
    (commitResults i s).timer = s.timer ∧ (commitResults i s).busyFlag = s.busyFlag ∧
    (commitResults i s).freeCount = s.freeCount ∧ (commitResults i s).stgClk = s.stgClk := by
  cases i <;> exact ⟨rfl, rfl, rfl, rfl, rfl, rfl, rfl, rfl, rfl, rfl, rfl, rfl, rfl, rfl, rfl, rfl, rfl⟩

/-- Which request's `commit_results` writes which of DEVINFO, PRT_PASS, CLK_ACTUAL and CFG_STATE (R30, R33, R28, R21). -/
theorem commitResults_writers (i : Instr) (s : State) :
    (i ≠ .seqLoadDeviceInfo → (commitResults i s).devInfo = s.devInfo) ∧
    (i ≠ .seqPostResetTest → (commitResults i s).prtPass = s.prtPass) ∧
    (i ≠ .seqInit → (commitResults i s).clkActual = s.clkActual ∧ (commitResults i s).cfgState = s.cfgState) ∧
    (i = .seqInit → (commitResults i s).clkActual = s.stgClk ∧ (commitResults i s).cfgState = .ready) := by
  cases i <;> simp [commitResults] <;> and_intros <;> rfl

/-! ### One micro-op of a request -/

/-- What one micro-op of a request leaves alone, by kind of micro-op (R100). -/
theorem microStep_frame {i : Instr} {op : MicroOp} {s t : State} (h : microStep (commitResults i) op s = some t) :
    t.curReq = s.curReq ∧ t.submissions = s.submissions ∧ (∃ es, t.trace = s.trace ++ es) ∧
    (op ≠ .commit → t.devInfo = s.devInfo ∧ t.resp = s.resp ∧ t.respLen = s.respLen ∧ t.busyFlag = s.busyFlag ∧
      t.prtPass = s.prtPass ∧ t.clkActual = s.clkActual ∧ t.cfgState = s.cfgState) ∧
    ((∀ us, op ≠ .dly us) → t.timer = s.timer) ∧
    ((∀ p lvl, op ≠ .set p lvl) → (∀ ps, op ≠ .outen ps) → t.hold = s.hold ∧ t.wp = s.wp) ∧
    (op ≠ .fmt → t.busFmt = s.busFmt) ∧
    (op ≠ .commit →
      (t.seqState = s.seqState ∧ t.upc = s.upc + 1 ∧ t.resultValid = s.resultValid ∧ t.errCode = s.errCode ∧
        t.errTxn = s.errTxn ∧ t.errPhase = s.errPhase) ∨
      (((∃ W, op = .wr W) ∨ ∃ n slot, op = .rd n slot) ∧ t.seqState = .idle ∧ t.cs = .high ∧ t.resultValid = false ∧
        t.errCode = 0x01 ∧ t.errTxn = s.txnIdx.setWidth 8 ∧ (t.errPhase = 1 ∨ t.errPhase = 2))) := by
  obtain ⟨-, f2, -, -, -, f6, f7, f8, -, -, f11, f12, -, f14, -, -, -⟩ := commitResults_frame i s
  rcases microStep_cases h with ⟨rfl, -, rfl⟩ | ⟨W, rest, rfl, -, rfl⟩ | ⟨W, k, rest, rfl, -, -, rfl⟩ |
    ⟨n, slot, d, rest, rfl, -, -, rfl⟩ | ⟨n, slot, rest, rfl, -, rfl⟩ | ⟨rfl, rfl⟩ | ⟨us, u, rest, rfl, -, -, rfl⟩ |
    ⟨hz, a, rest, rfl, -, rfl⟩ | ⟨rfl, rfl⟩ | ⟨p, rfl, rfl⟩ | ⟨ps, rfl, rfl⟩ | ⟨p, lvl, rfl, rfl⟩ | ⟨rfl, rfl⟩ <;>
    simp [*, errTransportFault, phaseCode]

/-! ### The micro-programs -/

/-- `COMMIT` stands at the end of every micro-program and nowhere else (R100). -/
theorem microProgram_commit (i : Instr) : ∃ body, microProgram i = body ++ [.commit] ∧ .commit ∉ body := by
  refine ⟨(microProgram i).dropLast, ?_, ?_⟩ <;> cases i <;> decide

/-- Every micro-program is well formed: at most 25 micro-ops, all with legal operands (R23). -/
theorem microProgram_wellFormed (i : Instr) : programWellFormed (microProgram i) = true := by cases i <;> decide

/-- Only RESET and RESET_SEQ sleep, for 30 microseconds (R111). -/
theorem dly_mem_microProgram {i : Instr} {us : Nat} (h : .dly us ∈ microProgram i) :
    us = 30 ∧ (i = .cmdReset ∨ i = .seqResetSeq) := by
  cases i <;> revert h <;>
    simp [microProgram, programCmdEnableReset, programCmdReset, programCmdReleasePdId, programCmdReadJedecId,
      programCmdReadUniqueId, programCmdReadSr1, programCmdReadSr2, programCmdReadSr3, programSeqInit, programSeqResetSeq,
      programSeqLoadDeviceInfo, programSeqIsBusy, programSeqPostResetTest, Descriptor.txn, txn, rowEnableReset, rowReset,
      rowReleasePdId, rowReadJedecId, rowReadUniqueId, rowReadSr1, rowReadSr2, rowReadSr3, resetSettleUs]

end Sys2Proof.Machine
end

