-- ==== Sys2Proof/Laws/PerInstr.lean ====
section
/-! SUPPORT. A statement about every instruction as syntax, one lemma per constructor. -/

namespace Sys2Proof.Laws
open Sys2Proof.Machine

/-- R72, R73: a CMD request is one transaction, and its CODE is the first byte that transaction's write phase puts on the wire. -/
def WireOpcode.Statement (i : Instr) : Prop :=
  encodeClass i = 0x00 → ∃ row, transactions i = [row] ∧ row.writePhase.head? = some (encodeCode i)

theorem WireOpcode.cmdEnableReset : WireOpcode.Statement .cmdEnableReset := fun _ => ⟨_, rfl, rfl⟩
theorem WireOpcode.cmdReset : WireOpcode.Statement .cmdReset := fun _ => ⟨_, rfl, rfl⟩
theorem WireOpcode.cmdReleasePdId : WireOpcode.Statement .cmdReleasePdId := fun _ => ⟨_, rfl, rfl⟩
theorem WireOpcode.cmdReadJedecId : WireOpcode.Statement .cmdReadJedecId := fun _ => ⟨_, rfl, rfl⟩
theorem WireOpcode.cmdReadUniqueId : WireOpcode.Statement .cmdReadUniqueId := fun _ => ⟨_, rfl, rfl⟩
theorem WireOpcode.cmdReadSr1 : WireOpcode.Statement .cmdReadSr1 := fun _ => ⟨_, rfl, rfl⟩
theorem WireOpcode.cmdReadSr2 : WireOpcode.Statement .cmdReadSr2 := fun _ => ⟨_, rfl, rfl⟩
theorem WireOpcode.cmdReadSr3 : WireOpcode.Statement .cmdReadSr3 := fun _ => ⟨_, rfl, rfl⟩
theorem WireOpcode.seqInit : WireOpcode.Statement .seqInit := fun h => absurd h (by decide)
theorem WireOpcode.seqResetSeq : WireOpcode.Statement .seqResetSeq := fun h => absurd h (by decide)
theorem WireOpcode.seqLoadDeviceInfo : WireOpcode.Statement .seqLoadDeviceInfo := fun h => absurd h (by decide)
theorem WireOpcode.seqIsBusy : WireOpcode.Statement .seqIsBusy := fun h => absurd h (by decide)
theorem WireOpcode.seqPostResetTest : WireOpcode.Statement .seqPostResetTest := fun h => absurd h (by decide)

end Sys2Proof.Laws
end

