-- ==== Sys2Proof/Laws/Step.lean ====
section
/-! SUPPORT. What a step and an agent step are, case by case, so that later proofs unfold neither. -/

namespace Sys2Proof.Machine

/-- An ACTIVE block resumes its request. -/
theorem step_active {s : State} (h : s.seqState = .active) : step s = .next (resume s) := by simp [step, h]

/-- An IDLE block with nothing submitted waits. -/
theorem step_idle_nil {s : State} (h : s.seqState = .idle) (hs : s.submissions = []) : step s = .next s := by
  simp [step, h, hs]

/-- An IDLE block rejects an illegal word. -/
theorem step_illegal {s : State} {w : ReqWord} {rest : List ReqWord} {why : IllegalReason} (h : s.seqState = .idle)
    (hs : s.submissions = w :: rest) (hd : decode w = .illegal why) :
    step s = .next (reject errIllegalRequest { s with submissions := rest }) := by simp [step, h, hs, hd]

/-- An IDLE block runs the request its next word decodes to. -/
theorem step_request {s : State} {w : ReqWord} {rest : List ReqWord} {i : Instr} (h : s.seqState = .idle)
    (hs : s.submissions = w :: rest) (hd : decode w = .request i) :
    step s = exec i { s with submissions := rest } := by simp [step, h, hs, hd]

/-- While ACTIVE the agent step is the Block's. -/
theorem agentStep_active {s : State} (h : s.seqState = .active) : agentStep s = blockStep s := by simp [agentStep, h]

/-- While IDLE with nothing submitted no agent has a step. -/
theorem agentStep_idle_nil {s : State} (h : s.seqState = .idle) (hs : s.submissions = []) : agentStep s = none := by
  simp [agentStep, h, hs]

/-- While IDLE the agent step is the Host's submission. -/
theorem agentStep_idle_cons {s : State} {w : ReqWord} {rest : List ReqWord} (h : s.seqState = .idle)
    (hs : s.submissions = w :: rest) : agentStep s = submit w { s with submissions := rest } := by
  simp [agentStep, h, hs]

/-- The next micro-op of an ACTIVE block. -/
theorem nextOp_at {s : State} {i : Instr} {op : MicroOp} (ha : s.seqState = .active) (hd : decode s.curReq = .request i)
    (ho : (microProgram i)[s.upc.toNat]? = some op) : s.nextOp = some (i, op) := by simp [State.nextOp, ha, hd, ho]

/-- What a next micro-op says of the state. -/
theorem nextOp_some {s : State} {i : Instr} {op : MicroOp} (h : s.nextOp = some (i, op)) :
    s.seqState = .active ∧ decode s.curReq = .request i ∧ (microProgram i)[s.upc.toNat]? = some op := by
  unfold State.nextOp at h
  cases hq : s.seqState with
  | idle => simp [hq] at h
  | active =>
    cases hd : decode s.curReq with
    | illegal => simp [hq, hd] at h
    | request j =>
      simp only [hq, hd, Option.map_eq_some_iff, Prod.mk.injEq] at h
      obtain ⟨o, ho, rfl, rfl⟩ := h
      exact ⟨rfl, rfl, ho⟩

/-- An IDLE block has no Block step. -/
theorem blockStep_idle {s : State} (h : s.seqState = .idle) : blockStep s = none := by simp [blockStep, State.nextOp, h]

/-- A Block step is the step of its next micro-op. -/
theorem blockStep_some {s t : State} (h : blockStep s = some t) :
    ∃ i op, s.nextOp = some (i, op) ∧ microStep (commitResults i) op s = some t := by
  unfold blockStep at h
  cases hn : s.nextOp with
  | none => simp [hn] at h
  | some x => exact ⟨x.1, x.2, rfl, by simpa [hn] using h⟩

/-- The Block's step at a known micro-op. -/
theorem blockStep_at {s : State} {i : Instr} {op : MicroOp} (ha : s.seqState = .active) (hd : decode s.curReq = .request i)
    (ho : (microProgram i)[s.upc.toNat]? = some op) : blockStep s = microStep (commitResults i) op s := by
  simp [blockStep, nextOp_at ha hd ho]

/-- A submitted illegal word is rejected (R173). -/
theorem submit_illegal {s : State} {w : ReqWord} {why : IllegalReason} (h : s.seqState = .idle) (hd : decode w = .illegal why) :
    submit w s = some (reject errIllegalRequest s) := by simp [submit, h, hd]

/-- A submitted request goes through the remaining checks (R172). -/
theorem submit_request {s : State} {w : ReqWord} {i : Instr} (h : s.seqState = .idle) (hd : decode w = .request i) :
    submit w s = some (present w s) := by simp [submit, h, hd]

/-- While ACTIVE there is no submit step (R171). -/
theorem submit_active {s : State} {w : ReqWord} (h : s.seqState = .active) : submit w s = none := by simp [submit, h]

/-- A request presented before INIT is rejected unless it is INIT (R174). -/
theorem present_rejects {s : State} {w : ReqWord} (h : s.cfgState = .uninit) (hw : w ≠ initWord) :
    present w s = reject errNotInitialized s := if_pos ⟨h, hw⟩

/-- A request presented to a READY block, or INIT, is accepted (R171). -/
theorem present_accepts {s : State} {w : ReqWord} (h : s.cfgState = .ready ∨ w = initWord) : present w s = accept w s := by
  refine if_neg ?_
  rintro ⟨hu, hw⟩
  rcases h with h | h
  · simp [h] at hu
  · exact hw h

end Sys2Proof.Machine
end

