-- ==== Sys2Proof/Laws/Run.lean ====
section
/-! SUPPORT. A request in flight: where a state stands in its micro-program, what the next micro-op finds there, runs of whole
transactions, agent steps by case, and what the erased result registers cannot reach. -/

namespace Sys2Proof.Machine

/-- A block that is not ACTIVE is IDLE. -/
theorem idle_of_not_active {s : State} (h : s.seqState ≠ .active) : s.seqState = .idle := by cases hq : s.seqState <;> simp_all

/-- Each request's own word decodes to it. -/
theorem decode_encode (i : Instr) : decode (encode i) = .request i := by cases i <;> decide

/-- A submitted request while IDLE: the checks, then the run if they accept it. -/
theorem runRequest_idle {w : ReqWord} {program : List MicroOp} {cr : State → State} {s : State} (h : s.seqState = .idle) :
    runRequest w program cr s = if (present w s).seqState = .idle then present w s else runOps cr program (present w s) := by
  unfold runRequest
  rw [h]
  cases (present w s).seqState <;> simp

/-! ### Facts about the thirteen micro-programs -/

/-- No micro-program is longer than 25 (R23). -/
theorem microProgram_length (i : Instr) : (microProgram i).length ≤ 25 := by cases i <;> decide

/-- `COMMIT` is at the last index and only there. -/
theorem commit_iff_last (i : Instr) :
    ∀ k, (h : k < (microProgram i).length) → ((microProgram i)[k] = .commit ↔ k + 1 = (microProgram i).length) := by
  cases i <;> decide

/-- What stands before a micro-op of a micro-program: which window it is in, how many windows are closed, which request it is of. -/
def placed (i : Instr) (before : List MicroOp) (op : MicroOp) : Bool :=
  (match op with
   | .csl => programPhase before == .closed && i != .seqInit
   | .wr _ => programPhase before == .writing && i != .seqInit && before.count .csh ≤ 5
   | .rd n _ => programPhase before == .writing && i != .seqInit && before.count .csh ≤ 5 && 1 ≤ n
   | .csh => (programPhase before == .writing || programPhase before == .reading) && i != .seqInit && before.count .csh ≤ 5
   | .set p lvl => programPhase before == .closed && i == .seqInit && p.manual && lvl == .high &&
       before.all (fun o => match o with | .set q _ => q != p | _ => true)
   | .outen _ => programPhase before == .closed && i == .seqInit && before.all (fun o => match o with | .set _ _ => false | _ => true)
   | .fmt => programPhase before == .closed && i == .seqInit
   | .dly _ | .cfg _ | .pinfn _ | .commit => programPhase before == .closed) && decide (before.count .csh ≤ 6)

/-- Every micro-op of every micro-program is placed so (R101, R106, R140). -/
theorem microProgram_placed (i : Instr) :
    ∀ k, (h : k < (microProgram i).length) → placed i ((microProgram i).take k) (microProgram i)[k] = true := by
  cases i <;> decide

/-- A request other than INIT is its transactions followed by a tail (R101). -/
theorem microProgram_transactions (i : Instr) (h : i ≠ .seqInit) :
    ∃ tail, microProgram i = (transactions i).flatMap Descriptor.txn ++ tail := by
  cases i <;> first | exact absurd rfl h | exact ⟨_, rfl⟩

/-- Only four requests stage an SR1 byte (R32). -/
theorem rd12_mem_microProgram {i : Instr} {n : Nat} (h : .rd n 12 ∈ microProgram i) :
    i = .cmdReadSr1 ∨ i = .seqIsBusy ∨ i = .seqLoadDeviceInfo ∨ i = .seqPostResetTest := by
  revert h
  cases i <;> simp [microProgram, programCmdEnableReset, programCmdReset, programCmdReleasePdId, programCmdReadJedecId,
    programCmdReadUniqueId, programCmdReadSr1, programCmdReadSr2, programCmdReadSr3, programSeqInit, programSeqResetSeq,
    programSeqLoadDeviceInfo, programSeqIsBusy, programSeqPostResetTest, Descriptor.txn, txn, rowEnableReset, rowReset,
    rowReleasePdId, rowReadJedecId, rowReadUniqueId, rowReadSr1, rowReadSr2, rowReadSr3, resetSettleUs]

/-! ### Where a state stands -/

/-- `s` is ACTIVE in the request `i` and about to run the micro-op at index `k`. -/
structure At (i : Instr) (k : Nat) (s : State) : Prop where
  act : s.seqState = .active
  dec : decode s.curReq = .request i
  upc : s.upc.toNat = k
  lt : k < (microProgram i).length

/-- The micro-ops done are those before the index. -/
theorem At.done {i : Instr} {k : Nat} {s : State} (h : At i k s) : s.done = (microProgram i).take k := by
  simp [State.done, h.act, h.dec, h.upc]

/-- The Block's step there. -/
theorem At.blockStep {i : Instr} {k : Nat} {s : State} (h : At i k s) :
    Machine.blockStep s = microStep (commitResults i) ((microProgram i)[k]'h.lt) s := by
  apply blockStep_at h.act h.dec; rw [h.upc]; exact List.getElem?_eq_getElem h.lt

/-- An acceptance stands at the first micro-op. -/
theorem accept_at (i : Instr) (s : State) : At i 0 (accept (encode i) s) := ⟨rfl, decode_encode i, rfl, by cases i <;> decide⟩

/-- A micro-op that leaves the block ACTIVE moves it to the next index, and is not `COMMIT`. -/
theorem At.next {i : Instr} {k : Nat} {s t : State} (h : At i k s)
    (hs : microStep (commitResults i) ((microProgram i)[k]'h.lt) s = some t) (ha : t.seqState = .active) :
    At i (k + 1) t ∧ (microProgram i)[k]'h.lt ≠ .commit ∧ t.done = s.done ++ [(microProgram i)[k]'h.lt] := by
  obtain ⟨f1, -, -, -, -, -, -, f8⟩ := microStep_frame hs
  have hc : (microProgram i)[k]'h.lt ≠ .commit := by
    intro e; rw [e] at hs; simp [microStep] at hs; subst hs; simp at ha
  have hk : k + 1 < (microProgram i).length := by
    have := (commit_iff_last i k h.lt).not.1 hc; have := h.lt; omega
  have hat : At i (k + 1) t := by
    refine ⟨ha, by rw [f1]; exact h.dec, ?_, hk⟩
    rcases f8 hc with ⟨_, hu, _⟩ | ⟨_, hi, _⟩
    · rw [hu, BitVec.toNat_add, h.upc]
      have := microProgram_length i
      simp; omega
    · simp [hi] at ha
  refine ⟨hat, hc, ?_⟩
  rw [hat.done, h.done, List.take_add_one, List.getElem?_eq_getElem h.lt]; rfl

/-- While IDLE no micro-op is done. -/
theorem done_idle {s : State} (h : s.seqState = .idle) : s.done = [] := by simp [State.done, h]

/-- A property every micro-op step of the request keeps, at the index it stands, holds after the run. -/
theorem runOps_at {i : Instr} {P : State → Prop}
    (hstep : ∀ k u v, (h : At i k u) → P u → microStep (commitResults i) ((microProgram i)[k]'h.lt) u = some v → P v) :
    ∀ k s, At i k s → P s → P (runOps (commitResults i) ((microProgram i).drop k) s) := by
  intro k s h hP
  generalize hm : (microProgram i).length - k = m
  induction m generalizing k s with
  | zero => have := h.lt; omega
  | succ m ih =>
    rw [List.drop_eq_getElem_cons h.lt]
    cases hs : microStep (commitResults i) ((microProgram i)[k]'h.lt) s with
    | none => rw [runOps_none hs]; exact hP
    | some t =>
      have hPt := hstep k s t h hP hs
      by_cases ha : t.seqState = .active
      · rw [runOps_active hs ha]; exact ih (k + 1) t (h.next hs ha).1 hPt (by omega)
      · rw [runOps_idle hs (idle_of_not_active ha)]; exact hPt

/-- A submit step rejects or accepts. -/
theorem submit_cases {w : ReqWord} {s t : State} (h : submit w s = some t) :
    s.seqState = .idle ∧ ((∃ c, t = reject c s) ∨ t = accept w s) := by
  cases hq : s.seqState with
  | active => rw [submit_active hq] at h; simp at h
  | idle =>
    refine ⟨rfl, ?_⟩
    cases hd : decode w with
    | illegal => rw [submit_illegal hq hd] at h; simp at h; exact .inl ⟨_, h.symm⟩
    | request i =>
      rw [submit_request hq hd] at h
      simp only [Option.some.injEq] at h
      unfold present at h
      split at h
      · exact .inl ⟨_, h.symm⟩
      · exact .inr h.symm

/-- An agent step is a micro-op of the running request or the Host's submission. -/
theorem agentStep_cases {s t : State} (h : agentStep s = some t) :
    (∃ i k, ∃ hat : At i k s, microStep (commitResults i) ((microProgram i)[k]'hat.lt) s = some t) ∨
    (s.seqState = .idle ∧ ∃ w rest, s.submissions = w :: rest ∧ submit w { s with submissions := rest } = some t) := by
  by_cases hq : s.seqState = .active
  · left
    rw [agentStep_active hq] at h
    obtain ⟨i, op, hn, hs⟩ := blockStep_some h
    obtain ⟨-, hd, ho⟩ := nextOp_some hn
    obtain ⟨hl, hg⟩ := List.getElem?_eq_some_iff.1 ho
    exact ⟨i, _, ⟨hq, hd, rfl, hl⟩, by rw [hg]; exact hs⟩
  · right
    replace hq := idle_of_not_active hq
    refine ⟨hq, ?_⟩
    cases hs : s.submissions with
    | nil => rw [agentStep_idle_nil hq hs] at h; simp at h
    | cons w rest => rw [agentStep_idle_cons hq hs] at h; exact ⟨w, rest, rfl, h⟩

/-- The step at `COMMIT`. -/
theorem commit_of_step {i : Instr} {s t : State} (h : microStep (commitResults i) .commit s = some t) :
    t = finishCommit (commitResults i s) := by simpa [microStep] using h.symm

/-- What a micro-op step does to `STG_SR1V` (R29). -/
theorem microStep_stgSr1v {i : Instr} {op : MicroOp} {u v : State} (hm : microStep (commitResults i) op u = some v) :
    v.stgSr1v = u.stgSr1v ∨ (∃ n, op = .rd n 12) ∧ v.stgSr1v = true := by
  have := commitResults_frame i u
  rcases microStep_cases hm with ⟨rfl, -, rfl⟩ | ⟨W, rest, rfl, -, rfl⟩ | ⟨W, k, rest, rfl, -, -, rfl⟩ |
    ⟨n, slot, d, rest, rfl, -, -, rfl⟩ | ⟨n, slot, rest, rfl, -, rfl⟩ | ⟨rfl, rfl⟩ | ⟨us, u, rest, rfl, -, -, rfl⟩ |
    ⟨hz, a, rest, rfl, -, rfl⟩ | ⟨rfl, rfl⟩ | ⟨p, rfl, rfl⟩ | ⟨ps, rfl, rfl⟩ | ⟨p, lvl, rfl, rfl⟩ | ⟨rfl, rfl⟩ <;>
    simp [*]
  by_cases h : slot = 12 <;> simp [h]

/-! ### Requests submitted or resumed -/

/-- A property the acceptance or rejection of a request meets and its micro-op steps keep holds after it. -/
theorem exec_keeps {P : State → Prop} {i : Instr} {s t : State} (h : exec i s = .next t) (h0 : P s)
    (hr : P (reject errNotInitialized s)) (ha : P (accept (encode i) s))
    (hstep : ∀ op ∈ microProgram i, ∀ u v, u.seqState = .active → P u → microStep (commitResults i) op u = some v → P v) : P t := by
  rcases exec_cases h with ⟨_, rfl⟩ | ⟨_, _, _, rfl⟩ | ⟨_, _, rfl⟩
  · exact h0
  · exact hr
  · exact runOps_keeps hstep rfl ha

/-- A resumed request runs its micro-program from UPC. -/
theorem Resumes.eq {i : Instr} {s t : State} (h : Resumes i s t) :
    At i s.upc.toNat s ∧ t = runOps (commitResults i) ((microProgram i).drop s.upc.toNat) s := by
  obtain ⟨hi, ha, hd, hs⟩ := h
  obtain ⟨j, h1, h2, -⟩ := hi.running ha
  obtain rfl : j = i := by rw [hd] at h1; exact (Decoded.request.inj h1).symm
  refine ⟨⟨ha, hd, rfl, h2⟩, ?_⟩
  rw [step_active ha, Host.Outcome.next.injEq, resume, hd] at hs
  exact hs.symm

/-- A property the micro-op steps of a resumed request keep holds after it. -/
theorem Resumes.keeps {P : State → Prop} {i : Instr} {s t : State} (h : Resumes i s t) (h0 : P s)
    (hstep : ∀ op ∈ microProgram i, ∀ u v, u.seqState = .active → P u → microStep (commitResults i) op u = some v → P v) : P t := by
  rw [h.eq.2]
  exact runOps_keeps (fun op ho => hstep op (List.mem_of_mem_drop ho)) h.2.1 h0

/-- While ACTIVE an invariant state has no valid results. -/
theorem StateInv.not_valid {s : State} (h : StateInv s) (ha : s.seqState = .active) : s.resultValid = false := by
  cases hv : s.resultValid with
  | false => rfl
  | true => have := (h.validMeansSuccess hv).1; simp [ha] at this

/-! ### Responses -/

/-- A response of at most eight bytes is padded with 0x00 (R31). -/
theorem setResp_padded (b : List Byte) (s : State) (h : b.length ≤ 8) :
    (s.setResp b).respLen.toNat = b.length ∧
    ∀ k, (hk : k < 8) → (s.setResp b).respLen.toNat ≤ k → (s.setResp b).resp[k] = 0x00 := by
  have hl : (s.setResp b).respLen.toNat = b.length := by simp; omega
  refine ⟨hl, fun k hk hb => ?_⟩
  rw [hl] at hb
  have hg : ∀ j, b.length ≤ j → b.getD j 0 = 0 := fun j hj => by simp [hj]
  have e : (s.setResp b).resp[k] = b.getD k 0 := by
    simp only [State.setResp_resp]
    match k, hk with
    | 0, _ | 1, _ | 2, _ | 3, _ | 4, _ | 5, _ | 6, _ | 7, _ => rfl
  rw [e, hg k hb]

/-- Every `commit_results` writes a response of at most eight bytes (R31, R108). -/
theorem commitResults_resp (i : Instr) (s : State) : ∃ b s', b.length ≤ 8 ∧
    (commitResults i s).resp = (State.setResp b s').resp ∧ (commitResults i s).respLen = (State.setResp b s').respLen := by
  cases i <;> refine ⟨_, _, ?_, rfl, rfl⟩ <;> simp [State.staged, rowEnableReset, rowReset, rowReleasePdId, rowReadJedecId,
    rowReadUniqueId, rowReadSr1, rowReadSr2, rowReadSr3]

/-! ### Runs of whole transactions -/

/-- `v` is `u` further along the same request: chip-select at `c`, the events `es` appended, `n` windows closed, the answers `more`
left, results and setup as they were. -/
structure Along (u v : State) (c : Level) (es : List Event) (n : BitVec 3) (more : List TransportAnswer) : Prop where
  act : v.seqState = .active
  cur : v.curReq = u.curReq
  cs : v.cs = c
  trace : v.trace = u.trace ++ es
  txnIdx : v.txnIdx = u.txnIdx + n
  results : SameResults u v
  setup : SameSetup u v
  transport : v.transport = more
  timer : v.timer = u.timer

/-- Going along twice. -/
theorem Along.trans {u v w : State} {c d : Level} {es fs : List Event} {m n : BitVec 3} {m1 m2 : List TransportAnswer}
    (h : Along u v c es m m1) (k : Along v w d fs n m2) : Along u w d (es ++ fs) (m + n) m2 := by
  obtain ⟨a1, a2, a3, a4, a5, a6, a7, a8, a9⟩ := h
  obtain ⟨b1, b2, b3, b4, b5, b6, b7, b8, b9⟩ := k
  refine ⟨b1, b2.trans a2, b3, by rw [b4, a4]; simp, by rw [b5, a5, BitVec.add_assoc], ?_, ?_, b8, b9.trans a9⟩
  · simp_all [SameResults]
  · simp_all [SameSetup]

/-- `CSL` goes along. -/
theorem along_csl {cr : State → State} {u : State} (ha : u.seqState = .active) (hc : u.cs = .high) :
    ∃ v, microStep cr .csl u = some v ∧ Along u v .low [.csl] 0 u.transport :=
  ⟨_, by simp [microStep, hc]; rfl, by constructor <;> simp [ha, SameResults, SameSetup]⟩

/-- `CSH` goes along and closes a window. -/
theorem along_csh {cr : State → State} {u : State} (ha : u.seqState = .active) :
    ∃ v, microStep cr .csh u = some v ∧ Along u v .high [.csh] 1 u.transport :=
  ⟨_, rfl, by constructor <;> simp [ha, SameResults, SameSetup]⟩

/-- An answered write phase goes along. -/
theorem along_wr {cr : State → State} {W : List Byte} {u : State} {more : List TransportAnswer} (ha : u.seqState = .active)
    (ht : u.transport = .writeOk :: more) : ∃ v, microStep cr (.wr W) u = some v ∧ Along u v u.cs (W.map .tx) 0 more :=
  ⟨_, by simp [microStep, writePhase, ht]; rfl, by constructor <;> simp [ha, SameResults, SameSetup]⟩

/-- An answered read phase goes along. -/
theorem along_rd {cr : State → State} {n slot : Nat} {b : List Byte} {u : State} {more : List TransportAnswer}
    (ha : u.seqState = .active) (hb : b.length = n) (ht : u.transport = .readOk b :: more) :
    ∃ v, microStep cr (.rd n slot) u = some v ∧ Along u v u.cs (b.map .rx) 0 more :=
  ⟨_, by simp [microStep, readPhase, ht, hb]; rfl, by constructor <;> simp [ha, SameResults, SameSetup]⟩

/-- An answered transaction goes along (R76, R101). -/
theorem runOps_txn {cr : State → State} {row : Descriptor} {b : List Byte} {u : State} {more : List TransportAnswer}
    {ops : List MicroOp} (ha : u.seqState = .active) (hc : u.cs = .high) (hb : b.length = row.readLen)
    (ht : u.transport = row.answers b ++ more) :
    ∃ v, runOps cr (row.txn ++ ops) u = runOps cr ops v ∧ Along u v .high (row.events b) 1 more := by
  obtain ⟨u1, m1, k1⟩ := along_csl (cr := cr) ha hc
  by_cases hn : row.readLen > 0
  · simp only [Descriptor.answers, hn, if_true, List.cons_append, List.nil_append] at ht
    obtain ⟨u2, m2, k2⟩ := along_wr (cr := cr) (W := row.writePhase) k1.act (k1.transport.trans ht)
    obtain ⟨u3, m3, k3⟩ := along_rd (cr := cr) (slot := row.slot.getD 0) k2.act hb k2.transport
    obtain ⟨u4, m4, k4⟩ := along_csh (cr := cr) k3.act
    refine ⟨u4, ?_, ?_⟩
    · simp only [Descriptor.txn, txn, hn, if_true, List.cons_append, List.nil_append]
      rw [runOps_active m1 k1.act, runOps_active m2 k2.act, runOps_active m3 k3.act, runOps_active m4 k4.act]
    · obtain ⟨a1, a2, a3, a4, a5, a6, a7, a8, a9⟩ := ((k1.trans k2).trans k3).trans k4
      exact ⟨a1, a2, a3, by rw [a4]; simp [Descriptor.events], a5, a6, a7, a8.trans k3.transport, a9⟩
  · simp only [Descriptor.answers, hn, if_false, List.cons_append, List.nil_append] at ht
    obtain rfl : b = [] := List.length_eq_zero_iff.1 (by omega)
    obtain ⟨u2, m2, k2⟩ := along_wr (cr := cr) (W := row.writePhase) k1.act (k1.transport.trans ht)
    obtain ⟨u4, m4, k4⟩ := along_csh (cr := cr) k2.act
    refine ⟨u4, ?_, ?_⟩
    · simp only [Descriptor.txn, txn, hn, if_false, List.cons_append, List.nil_append]
      rw [runOps_active m1 k1.act, runOps_active m2 k2.act, runOps_active m4 k4.act]
    · obtain ⟨a1, a2, a3, a4, a5, a6, a7, a8, a9⟩ := (k1.trans k2).trans k4
      exact ⟨a1, a2, a3, by rw [a4]; simp [Descriptor.events], a5, a6, a7, a8.trans k2.transport, a9⟩

/-- Several answered transactions in a row go along. -/
theorem runOps_txns {cr : State → State} {l : List (Descriptor × List Byte)} {u : State} {more : List TransportAnswer}
    {ops : List MicroOp} (ha : u.seqState = .active) (hc : u.cs = .high) (hl : ∀ x ∈ l, x.2.length = x.1.readLen)
    (ht : u.transport = answersOf l ++ more) :
    ∃ v, runOps cr ((l.map Prod.fst).flatMap Descriptor.txn ++ ops) u = runOps cr ops v ∧
      Along u v .high (eventsOf l) (BitVec.ofNat 3 l.length) more := by
  induction l generalizing u with
  | nil => exact ⟨u, rfl, ⟨ha, rfl, hc, by simp [eventsOf], by simp, by simp [SameResults], by simp [SameSetup],
      by simpa [answersOf] using ht, rfl⟩⟩
  | cons x l ih =>
    obtain ⟨row, b⟩ := x
    simp only [answersOf, List.flatMap_cons, List.append_assoc] at ht
    obtain ⟨v, h1, k1⟩ := runOps_txn (cr := cr) (ops := (l.map Prod.fst).flatMap Descriptor.txn ++ ops) ha hc (hl (row, b) (by simp)) ht
    obtain ⟨w, h2, k2⟩ := ih k1.act k1.cs (fun x hx => hl x (by simp [hx])) k1.transport
    refine ⟨w, by simp only [List.map_cons, List.flatMap_cons, List.append_assoc]; rw [h1, h2], ?_⟩
    have e : (1 : BitVec 3) + BitVec.ofNat 3 l.length = BitVec.ofNat 3 (l.length + 1) := by
      apply BitVec.eq_of_toNat_eq; simp; omega
    have k := k1.trans k2
    rw [e] at k
    exact k

/-! ### Traces -/

/-- Where a longer trace stands. -/
theorem tracePhase_append (a b : List Event) :
    tracePhase (a ++ b) = (tracePhase a).bind fun ph => b.foldlM WindowPhase.event ph := by simp [tracePhase, List.foldlM_append]

/-- `TX` events keep a window writing. -/
theorem foldlM_tx (W : List Byte) : (W.map Event.tx).foldlM WindowPhase.event .writing = some .writing := by
  induction W with
  | nil => rfl
  | cons b W ih => simpa [List.foldlM, WindowPhase.event] using ih

/-- `RX` events keep a window reading. -/
theorem foldlM_rx (d : List Byte) : (d.map Event.rx).foldlM WindowPhase.event .reading = some .reading := by
  induction d with
  | nil => rfl
  | cons b W ih => simpa [List.foldlM, WindowPhase.event] using ih

/-- The phase after one more micro-op. -/
theorem programPhase_append (d : List MicroOp) (op : MicroOp) : programPhase (d ++ [op]) = (programPhase d).op op := by
  simp [programPhase]

/-- The events of one more completed micro-op. -/
theorem performed_snoc {ops : List MicroOp} {op : MicroOp} {es fs : List Event} (h : Performed ops es) (hd : op.did fs) :
    Performed (ops ++ [op]) (es ++ fs) := by
  induction ops generalizing es with
  | nil => obtain rfl : es = [] := h; exact ⟨fs, [], by simp, hd, rfl⟩
  | cons o ops ih =>
    obtain ⟨a, b, rfl, h1, h2⟩ := h
    exact ⟨a, b ++ fs, by simp, h1, ih h2⟩

/-- A micro-op that leaves the block ACTIVE emits its events (R100). -/
theorem microStep_did {i : Instr} {op : MicroOp} {s t : State} (h : microStep (commitResults i) op s = some t)
    (ha : t.seqState = .active) : ∃ fs, t.trace = s.trace ++ fs ∧ op.did fs := by
  rcases microStep_cases h with ⟨rfl, -, rfl⟩ | ⟨W, rest, rfl, -, rfl⟩ | ⟨W, k, rest, rfl, -, -, rfl⟩ |
    ⟨n, slot, d, rest, rfl, hd, -, rfl⟩ | ⟨n, slot, rest, rfl, -, rfl⟩ | ⟨rfl, rfl⟩ | ⟨us, u, rest, rfl, -, -, rfl⟩ |
    ⟨hz, a, rest, rfl, -, rfl⟩ | ⟨rfl, rfl⟩ | ⟨p, rfl, rfl⟩ | ⟨ps, rfl, rfl⟩ | ⟨p, lvl, rfl, rfl⟩ | ⟨rfl, rfl⟩
  all_goals try (simp at ha; done)
  · exact ⟨[.csl], by simp, rfl⟩
  · exact ⟨W.map .tx, by simp, rfl⟩
  · exact ⟨d.map .rx, by simp, d, hd, rfl⟩
  · exact ⟨[.csh], by simp, rfl⟩
  · exact ⟨[.dly us], by simp, rfl⟩
  · exact ⟨[.cfg (.configure hz a)], by simp, a, rfl⟩
  · exact ⟨[.cfg .setFormat], by simp, rfl⟩
  · exact ⟨[.cfg (.assignBusFunction p)], by simp, rfl⟩
  · exact ⟨[.cfg (.configureAsOutput ps)], by simp, rfl⟩
  · exact ⟨[.pin p lvl], by simp, rfl⟩

/-! ### Runs of the agents -/

/-- Every move from a reachable state reaches one. -/
theorem Reachable.move {s t : State} (h : Reachable s) (m : Move s t) : Reachable t := by
  cases m with
  | block hb =>
    obtain ⟨i, op, hn, -⟩ := blockStep_some hb
    exact h.agent ((agentStep_active (nextOp_some hn).1).trans hb)
  | host w hw =>
    exact (h.inputs (w :: s.submissions) s.transport s.timer).agent
      ((agentStep_idle_cons (s := { s with submissions := w :: s.submissions }) (submit_cases hw).1 rfl).trans hw)
  | environment ts us _ => exact h.inputs s.submissions ts us

/-- A sleeping block stands at its DLY. -/
theorem sleep_some {s : State} {us : Nat} (h : s.sleep = some us) : ∃ i, s.nextOp = some (i, .dly us) := by
  unfold State.sleep at h
  split at h
  · rename_i i u hn; simp only [Option.some.injEq] at h; exact ⟨i, h ▸ hn⟩
  · simp at h

/-- A sleeping block steps exactly when the Timer's report is there, and then its DLY completes (R111). -/
theorem blockStep_sleep {s : State} {us : Nat} (h : s.sleep = some us) :
    (s.timerReports us = false → blockStep s = none) ∧
    (s.timerReports us = true → ∃ t, blockStep s = some t ∧ t.trace = s.trace ++ [.dly us] ∧ t.upc = s.upc + 1) := by
  obtain ⟨i, hn⟩ := sleep_some h
  obtain ⟨ha, hd, ho⟩ := nextOp_some hn
  rw [blockStep_at ha hd ho]
  unfold State.timerReports
  cases ht : s.timer with
  | nil => simp [microStep, ht]
  | cons u rest => by_cases hu : us ≤ u <;> simp [microStep, ht, hu]

end Sys2Proof.Machine
end

