-- ==== Sys2Proof/Tests/Slice0.lean ====
section
/-! SUPPORT. Tests: ill-formed terms, decoding of words written out from R73 and R74, the vectors of 95_test_vectors.md, and a witness for
the hypotheses of every obligation that has some. Expected results are the spec's own. -/

namespace Sys2Proof.Tests
open Sys2Proof.Machine

/-! ### Well-formedness: one ill-formed term for each check -/

theorem test_wf_write_phase_too_long : Descriptor.wellFormed ⟨0x4B, 5, 8, some 4⟩ = false := by decide
theorem test_wf_read_too_long : Descriptor.wellFormed ⟨0x4B, 4, 9, some 4⟩ = false := by decide
theorem test_wf_read_without_slot : Descriptor.wellFormed ⟨0x05, 0, 1, none⟩ = false := by decide
theorem test_wf_slot_without_read : Descriptor.wellFormed ⟨0x66, 0, 0, some 0⟩ = false := by decide
theorem test_wf_read_past_staging : Descriptor.wellFormed ⟨0x9F, 0, 3, some 13⟩ = false := by decide
theorem test_wf_empty_write : MicroOp.wellFormed (.wr []) = false := by decide
theorem test_wf_long_write : MicroOp.wellFormed (.wr [0, 0, 0, 0, 0, 0]) = false := by decide
theorem test_wf_empty_read : MicroOp.wellFormed (.rd 0 0) = false := by decide
theorem test_wf_long_read : MicroOp.wellFormed (.rd 9 0) = false := by decide
theorem test_wf_read_slot : MicroOp.wellFormed (.rd 2 14) = false := by decide
theorem test_wf_other_sleep : MicroOp.wellFormed (.dly 31) = false := by decide
theorem test_wf_bus_function_of_cs : MicroOp.wellFormed (.pinfn .cs) = false := by decide
theorem test_wf_output_of_mosi : MicroOp.wellFormed (.outen [.cs, .mosi]) = false := by decide
theorem test_wf_set_bus_pin : MicroOp.wellFormed (.set .sck .high) = false := by decide
theorem test_wf_set_undriven : MicroOp.wellFormed (.set .cs .undriven) = false := by decide
theorem test_wf_program_without_commit : programWellFormed [.csl, .csh] = false := by decide
theorem test_wf_program_inner_commit : programWellFormed [.commit, .commit] = false := by decide
theorem test_wf_program_too_long : programWellFormed (List.replicate 25 .csl ++ [.commit]) = false := by decide
theorem test_wf_program_bad_op : programWellFormed [.wr [], .commit] = false := by decide
theorem test_wf_requests : Instr.wellFormed .cmdReadUniqueId = true ∧ Instr.wellFormed .seqLoadDeviceInfo = true := by decide

/-! ### Decoding: CLASS then CODE, bit by bit from R73 and R74 -/

theorem test_decode_cmd_words :
    decode 0b0000000001100110 = .request .cmdEnableReset ∧ decode 0b0000000010011001 = .request .cmdReset ∧
    decode 0b0000000010101011 = .request .cmdReleasePdId ∧ decode 0b0000000010011111 = .request .cmdReadJedecId ∧
    decode 0b0000000001001011 = .request .cmdReadUniqueId ∧ decode 0b0000000000000101 = .request .cmdReadSr1 ∧
    decode 0b0000000000110101 = .request .cmdReadSr2 ∧ decode 0b0000000000010101 = .request .cmdReadSr3 := by decide

theorem test_decode_seq_words :
    decode 0b0000000100000001 = .request .seqInit ∧ decode 0b0000000100000010 = .request .seqResetSeq ∧
    decode 0b0000000100000011 = .request .seqLoadDeviceInfo ∧ decode 0b0000000100000100 = .request .seqIsBusy ∧
    decode 0b0000000100000101 = .request .seqPostResetTest := by decide

/-- E-1, E-4 to E-7. -/
theorem test_decode_illegal :
    decode 0x0006 = .illegal (.unusedCmdCode 0x06) ∧ decode 0x0100 = .illegal (.unusedSeqCode 0x00) ∧
    decode 0x0106 = .illegal (.unusedSeqCode 0x06) ∧ decode 0x0200 = .illegal (.reservedClass 0x02) ∧
    decode 0x8005 = .illegal (.reservedClass 0x80) ∧ decode 0xFFFF = .illegal (.reservedClass 0xFF) ∧
    decode 0x0000 = .illegal (.unusedCmdCode 0x00) ∧ decode 0x00FF = .illegal (.unusedCmdCode 0xFF) ∧
    decode 0x0003 = .illegal (.unusedCmdCode 0x03) := by decide

/-- R82's examples. -/
theorem test_text : Instr.text .cmdReadSr1 = "CMD READ_SR1" ∧ Instr.text .seqIsBusy = "SEQ IS_BUSY" := by decide

/-! ### States of the vectors -/

/-- SR of 95_test_vectors.md, with the Transport's and the Timer's answers to come. -/
def ready (ts : List TransportAnswer) (tm : List Nat) : State :=
  { State.reset with
    cfgState := .ready, cs := .high, hold := .high, wp := .high, busFmt := busFormat, clkActual := 62500000
    resultValid := true, transport := ts, timer := tm }

/-- The state a meaning answers with. -/
def after (o : Host.Outcome State Fault Refusal) : State :=
  match o with
  | .next s => s
  | _ => State.reset

/-- `n` bytes of the result space at `a`. -/
def rs (s : State) (a n : Nat) : List Byte := (List.range n).map fun k => s.rsByte (a + k)

/-- ERR as 95_test_vectors.md writes it, and FLAGS. -/
def errFlags (s : State) : List Byte := [s.errCode, s.errTxn, s.errPhase, flagsByte s]

/-- An ACTIVE block at index `upc` of the request `w`, `txn` windows closed, with an empty trace. -/
def inFlight (w : ReqWord) (upc : BitVec 5) (txn : BitVec 3) : State :=
  { ready [] [] with seqState := .active, curReq := w, upc := upc, txnIdx := txn, resultValid := false }

/-- The draws of L1-2. -/
def infoDraws : List TransportAnswer :=
  [.writeOk, .readOk [0xA1], .writeOk, .readOk [0xB1, 0xB2, 0xB3], .writeOk,
   .readOk [0xC1, 0xC2, 0xC3, 0xC4, 0xC5, 0xC6, 0xC7, 0xC8], .writeOk, .readOk [0xD1], .writeOk, .readOk [0xE1],
   .writeOk, .readOk [0xF1]]

/-! ### Vectors -/

/-- C-1. -/
theorem test_enable_reset : (after (exec .cmdEnableReset (ready [.writeOk] []))).trace = [.csl, .tx 0x66, .csh] ∧
    rs (after (exec .cmdEnableReset (ready [.writeOk] []))) 0x18 2 = [0x00, 0x0C] := by decide
/-- F-8. -/
theorem test_reset_sleeps : (after (exec .cmdReset (ready [.writeOk] [45]))).trace = [.csl, .tx 0x99, .csh, .dly 30] := by decide
/-- F-9. -/
theorem test_reset_fault : (after (exec .cmdReset (ready [.writeFault 1] []))).trace = [.csl, .tx 0x99, .fault .write, .csh] ∧
    errFlags (after (exec .cmdReset (ready [.writeFault 1] []))) = [0x01, 0, 1, 0x08] := by decide
/-- C-4. -/
theorem test_release_pd_id :
    (after (exec .cmdReleasePdId (ready [.writeOk, .readOk [0xFF]] []))).trace =
      [.csl, .tx 0xAB, .tx 0, .tx 0, .tx 0, .rx 0xFF, .csh] ∧
    rs (after (exec .cmdReleasePdId (ready [.writeOk, .readOk [0xFF]] []))) 0x10 9 = [0xFF, 0, 0, 0, 0, 0, 0, 0, 1] := by decide
/-- C-6. -/
theorem test_jedec_id : rs (after (exec .cmdReadJedecId (ready [.writeOk, .readOk [0xEF, 0x40, 0x18]] []))) 0x10 9 =
    [0xEF, 0x40, 0x18, 0, 0, 0, 0, 0, 3] := by decide
/-- F-5. -/
theorem test_jedec_fault : (after (exec .cmdReadJedecId (ready [.writeOk, .readFault] []))).trace =
      [.csl, .tx 0x9F, .fault .read, .csh] ∧
    errFlags (after (exec .cmdReadJedecId (ready [.writeOk, .readFault] []))) = [0x01, 0, 2, 0x08] := by decide
/-- L1-5. -/
theorem test_unique_id :
    rs (after (exec .cmdReadUniqueId
      (ready [.writeOk, .readOk [0x01, 0x23, 0x45, 0x67, 0x89, 0xAB, 0xCD, 0xEF]] []))) 0x10 9 =
    [0x01, 0x23, 0x45, 0x67, 0x89, 0xAB, 0xCD, 0xEF, 8] := by decide
/-- L1-1c. -/
theorem test_unique_id_fault : (after (exec .cmdReadUniqueId (ready [.writeFault 2] []))).trace =
    [.csl, .tx 0x4B, .tx 0x00, .fault .write, .csh] := by decide
/-- C-9, C-10. -/
theorem test_sr1_busy : flagsByte (after (exec .cmdReadSr1 (ready [.writeOk, .readOk [0xFE]] []))) = 0x0C ∧
    flagsByte (after (exec .cmdReadSr1 (ready [.writeOk, .readOk [0x03]] []))) = 0x0D := by decide
/-- C-11. -/
theorem test_sr1_fault_keeps_busy :
    errFlags (after (exec .cmdReadSr1 { ready [.writeOk, .readFault] [] with busyFlag := true })) = [0x01, 0, 2, 0x09] := by decide
/-- C-12, C-13. -/
theorem test_sr2_is_not_busy : flagsByte (after (exec .cmdReadSr2 (ready [.writeOk, .readOk [0x01]] []))) = 0x0C ∧
    flagsByte (after (exec .cmdReadSr2 { ready [.writeOk, .readOk [0x00]] [] with busyFlag := true })) = 0x0D := by decide
/-- C-15. -/
theorem test_sr3_clears_the_rest :
    rs (after (exec .cmdReadSr3 { ready [.writeOk, .readOk [0x60]] [] with
      resp := #v[0xFF, 0xFF, 0xFF, 0xFF, 0xFF, 0xFF, 0xFF, 0xFF], respLen := 8 })) 0x10 9 =
    [0x60, 0, 0, 0, 0, 0, 0, 0, 1] := by decide
/-- S-1 (with M-2's rate): the clock bytes, and FLAGS 0x0C. -/
theorem test_init : rs (after (exec .seqInit { State.reset with transport := [.rate 62500000] })) 0x20 4 =
      [0xA0, 0xAC, 0xB9, 0x03] ∧
    flagsByte (after (exec .seqInit { State.reset with transport := [.rate 62500000] })) = 0x0C := by decide
/-- S-1's trace. -/
theorem test_init_trace : (after (exec .seqInit { State.reset with transport := [.rate 100000000] })).trace =
    [.cfg (.configure 100000000 100000000), .cfg .setFormat, .cfg (.assignBusFunction .mosi), .cfg (.assignBusFunction .sck),
      .cfg (.assignBusFunction .miso), .cfg (.configureAsOutput [.cs, .hold, .wp]), .pin .cs .high, .pin .hold .high,
      .pin .wp .high] := by decide
/-- L1-4. -/
theorem test_reset_seq : (after (exec .seqResetSeq (ready [.writeOk, .writeOk] [30]))).trace =
    [.csl, .tx 0x66, .csh, .csl, .tx 0x99, .csh, .dly 30] := by decide
/-- S-5. -/
theorem test_reset_seq_second_fault : errFlags (after (exec .seqResetSeq (ready [.writeOk, .writeFault 1] []))) =
    [0x01, 1, 1, 0x08] := by decide
/-- L1-2. -/
theorem test_load_device_info : rs (after (exec .seqLoadDeviceInfo (ready infoDraws []))) 0 16 =
    [0xA1, 0x00, 0xB1, 0xB2, 0xB3, 0xC1, 0xC2, 0xC3, 0xC4, 0xC5, 0xC6, 0xC7, 0xC8, 0xD1, 0xE1, 0xF1] ∧
    flagsByte (after (exec .seqLoadDeviceInfo (ready infoDraws []))) = 0x0D ∧
    (after (exec .seqLoadDeviceInfo (ready infoDraws []))).trace.length = 40 := by decide
/-- S-6. -/
theorem test_load_device_info_last_fault :
    errFlags (after (exec .seqLoadDeviceInfo (ready (infoDraws.take 11 ++ [.readFault]) []))) = [0x01, 5, 2, 0x08] ∧
    rs (after (exec .seqLoadDeviceInfo (ready (infoDraws.take 11 ++ [.readFault]) []))) 0 16 = List.replicate 16 0x00 := by decide
/-- L1-3. -/
theorem test_is_busy : ([0x00, 0x01, 0x81, 0x80].map fun b =>
    (after (exec .seqIsBusy (ready [.writeOk, .readOk [b]] []))).busyFlag) = [false, true, true, false] := by decide
/-- L1-1b. -/
theorem test_is_busy_fault : errFlags (after (exec .seqIsBusy (ready [.writeOk, .readFault] []))) = [0x01, 0, 2, 0x08] := by decide
/-- S-9's response. -/
theorem test_post_reset_test_response :
    rs (after (exec .seqPostResetTest
      (ready [.writeOk, .readOk [0x17], .writeOk, .readOk [0xEF, 0x40, 0x18], .writeOk, .readOk [0x00]] []))) 0x10 9 =
    [0x17, 0xEF, 0x40, 0x18, 0, 0, 0, 0, 5] := by decide
/-- S-9, S-12, S-13: the draws equal to the expected identity pass, whatever the JEDEC manufacturer byte and SR1's other bits. -/
theorem test_post_reset_test_passes :
    identityMatches Config.expMfr Config.expMemtype Config.expCap 0x80 = true := by simp [identityMatches, busyBit]
/-- E-2, E-1: NOT_INITIALIZED, and ILLEGAL_REQUEST before it. -/
theorem test_rejections : errFlags (after (exec .cmdReadSr1 State.reset)) = [0x03, 0, 0, 0x00] ∧
    errFlags (after (step (State.reset.withFetchWord 16 0x0006))) = [0x02, 0, 0, 0x00] := by decide
/-- F-6, F-7. -/
theorem test_hang : errFlags (after (exec .cmdReadJedecId (ready [] []))) = [0, 0, 0, 0x18] ∧
    (after (exec .cmdReadJedecId (ready [.writeOk] []))).upc = 2 := by decide
/-- M-1. -/
theorem test_reserved_offsets : [0x1D, 0x1F, 0x24, 0xFF].map (ready [] []).rsByte = [0, 0, 0, 0] := by decide
/-- R84: after a faulted poll the bench branches to `fail`. -/
theorem test_poll_ready_branch :
    (Bench.step (pollReady 0 9) ⟨2, #v[0, 1, 0, 0], false, ready [] []⟩).map Bench.pc = some 9 := by decide

/-! ### Witnesses: the hypotheses of each obligation, met together -/

theorem test_witness_DecodeReadsExactlyTheThirteenWords : encode .cmdReset = encode .cmdReset := rfl

/-- The clauses, at the ends of their ranges. -/
theorem test_witness_IllegalWordsAreTheThreeGroups :
    (2 ≤ ((0x0200 : ReqWord).extractLsb' 8 8).toNat ∧ 2 ≤ ((0xFFFF : ReqWord).extractLsb' 8 8).toNat) ∧
    ((0x0000 : ReqWord).extractLsb' 8 8 = 0x00 ∧
      (0x0000 : ReqWord).extractLsb' 0 8 ∉ [0x66#8, 0x99#8, 0xAB#8, 0x9F#8, 0x4B#8, 0x05#8, 0x35#8, 0x15#8]) ∧
    ((0x0100 : ReqWord).extractLsb' 8 8 = 0x01 ∧ (0x0100 : ReqWord).extractLsb' 0 8 = 0x00) ∧
    ((0x0106 : ReqWord).extractLsb' 8 8 = 0x01 ∧ 0x06 ≤ ((0x0106 : ReqWord).extractLsb' 0 8).toNat) ∧
    decode 0x0200 = .illegal (.reservedClass 0x02) := by decide

theorem test_witness_StepRunsTheDecodedRequest :
    (State.reset.seqState = .idle ∧ (State.reset.withFetchWord 16 0x0101).submissions = [0x0101] ∧
      decode 0x0101 = .request .seqInit) ∧
    ((State.reset.withFetchWord 16 0x0006).submissions = [0x0006] ∧ decode 0x0006 = .illegal (.unusedCmdCode 0x06)) := by decide

theorem test_witness_IllegalWordIsRejected : State.reset.seqState = .idle ∧ decode 0x0006 = .illegal (.unusedCmdCode 0x06) := by
  decide

theorem test_witness_RequestBeforeInitIsRejected :
    State.reset.seqState = .idle ∧ State.reset.cfgState = .uninit ∧ Instr.cmdReadSr1 ≠ .seqInit := by decide

theorem test_witness_SubmissionChecksRunInOrder :
    (State.reset.seqState = .idle ∧ decode 0x0006 = .illegal (.unusedCmdCode 0x06)) ∧
    (decode 0x0005 = .request .cmdReadSr1 ∧ State.reset.cfgState = .uninit ∧ (0x0005 : ReqWord) ≠ 0x0101) ∧
    (decode 0x0101 = .request .seqInit ∧ (State.reset.cfgState = .ready ∨ (0x0101 : ReqWord) = 0x0101)) ∧
    ((ready [] []).seqState = .idle ∧ (ready [] []).cfgState = .ready) := by decide

theorem test_witness_AcceptanceStartsTheRequest :
    (inFlight 0x0005 0 0).seqState = .active ∧ (ready [] []).seqState = .idle ∧ decode 0x0005 = .request .cmdReadSr1 ∧
    (ready [] []).cfgState = .ready := by decide

theorem test_witness_IdleBlockAndHeldHostWait :
    (State.reset.seqState = .idle ∧ State.reset.submissions = []) ∧ (inFlight 0x0005 1 0).seqState = .active ∧
    ∃ t, step (inFlight 0x0005 1 0) = .next t := ⟨⟨rfl, rfl⟩, rfl, _, rfl⟩

theorem test_witness_UnansweredPhaseHoldsTheBlock :
    ((inFlight 0x0005 1 0).transport = [] ∧ decode (inFlight 0x0005 1 0).curReq = .request .cmdReadSr1 ∧
      (microProgram .cmdReadSr1)[1]? = some (.wr [0x05])) ∧
    (microProgram .cmdReadSr1)[2]? = some (.rd 1 12) ∧
    (decode (inFlight 0x0101 0 0).curReq = .request .seqInit ∧ (microProgram .seqInit)[0]? = some (.cfg 100000000)) ∧
    ((inFlight 0x0099 3 1).timer = [] ∧ decode (inFlight 0x0099 3 1).curReq = .request .cmdReset ∧
      (microProgram .cmdReset)[3]? = some (.dly 30)) := by decide

theorem test_witness_HungRequestKeepsChipSelectLow : Instr.cmdReadSr1 ≠ .seqInit ∧ Ready (ready [] []) ∧
    (ready [] []).transport = [] := ⟨by decide, ⟨rfl, rfl, rfl⟩, rfl⟩

theorem test_witness_WritePhaseOutcomes :
    (ready [.writeOk] []).transport = [.writeOk] ∧ (0 ≤ [0x66#8].length ∧ (ready [.writeFault 0] []).transport = [.writeFault 0]) ∧
    (1 ≤ [0x66#8].length ∧ (ready [.writeFault 1] []).transport = [.writeFault 1]) ∧ (ready [] []).transport = [] := by decide

theorem test_witness_ReadPhaseOutcomes :
    (1 ≤ 1 ∧ [0x60#8].length = 1 ∧ 14 + 1 ≤ 15 ∧ (ready [.readOk [0x60]] []).transport = [.readOk [0x60]]) ∧
    (1 ≤ 3 ∧ [1#8, 2, 3].length = 3 ∧ 12 + 3 ≤ 15) ∧ (ready [.readFault] []).transport = [.readFault] ∧
    (ready [] []).transport = [] := by decide

theorem test_witness_ChipSelectHighClosesTheWindow :
    (∃ t, microStep id (.wr [0x66]) { inFlight 0x0066 1 0 with transport := [.writeFault 0] } = some t ∧ t.seqState = .idle) ∧
    Ready (ready [.writeOk] []) ∧ ∃ t, exec .cmdEnableReset (ready [.writeOk] []) = .next t ∧ t.seqState = .idle :=
  ⟨⟨_, rfl, rfl⟩, ⟨rfl, rfl, rfl⟩, _, rfl, rfl⟩

theorem test_witness_SleepLastsAtLeastTheRequestedTime :
    (30 ≤ 30 ∧ (ready [] [30]).timer = [30]) ∧ (29 < 30 ∧ (ready [] [29]).timer = [29]) ∧
    MicroOp.dly 30 ∈ microProgram .seqResetSeq := by decide

/-- A run in which a RESET sleeps, its report comes after a wait, and the block is then IDLE for ever. -/
def sleepRun : Nat → State
  | 0 => inFlight 0x0099 3 1
  | 1 => { inFlight 0x0099 3 1 with timer := [30] }
  | 2 => (blockStep { inFlight 0x0099 3 1 with timer := [30] }).getD State.reset
  | _ + 3 => finishCommit (commitCmdReset ((blockStep { inFlight 0x0099 3 1 with timer := [30] }).getD State.reset))

/-- SleepLastsAtLeastTheRequestedTime's clause on runs: a run that sleeps. -/
theorem test_witness_sleeping_run : Run sleepRun ∧ (sleepRun 0).sleep = some 30 := by
  refine ⟨⟨fun k => ?_, fun k us h => ?_⟩, by decide⟩
  · match k with
    | 0 => exact .environment [] [30] rfl
    | 1 => exact .block rfl
    | 2 => exact .block rfl
    | k + 3 => exact .environment [] [] rfl
  · match k with
    | 0 => exact ⟨2, by decide, .inl (by rw [show (sleepRun 2).sleep = none from rfl]; simp)⟩
    | 1 => exact ⟨2, by decide, .inl (by rw [show (sleepRun 2).sleep = none from rfl]; simp)⟩
    | 2 => exact absurd h (by rw [show (sleepRun 2).sleep = none from rfl]; simp)
    | k + 3 => exact absurd h (by rw [show (sleepRun (k + 3)).sleep = none from rfl]; simp)

theorem test_witness_ConfigurationMicroOps : (ready [.rate 0] []).transport = [.rate 0] ∧ (ready [] []).cs ≠ .undriven ∧
    (ready [] []).hold ≠ .undriven ∧ (ready [] []).wp ≠ .undriven := by decide

theorem test_witness_CommitCompletesTheRequest : MicroOp.csh ≠ .commit ∧
    ∃ t, microStep (commitResults .cmdReset) .csh (inFlight 0x0099 2 0) = some t := ⟨by decide, _, rfl⟩

theorem test_witness_EnableResetCompletes : Ready (ready [.writeOk] []) ∧ (ready [.writeOk] []).transport = [.writeOk] :=
  ⟨⟨rfl, rfl, rfl⟩, rfl⟩

theorem test_witness_ResetCompletesAfterTheSettleDelay : Ready (ready [.writeOk] [30]) ∧
    (ready [.writeOk] [30]).transport = [.writeOk] ∧ (ready [.writeOk] [30]).timer = [30] ∧ 30 ≤ 30 :=
  ⟨⟨rfl, rfl, rfl⟩, rfl, rfl, by decide⟩

/-- The hypotheses shared by RELEASE_PD_ID, READ_SR1, READ_SR2, READ_SR3 and IS_BUSY. -/
theorem test_witness_one_byte_reads : Ready (ready [.writeOk, .readOk [0x81]] []) ∧
    (ready [.writeOk, .readOk [0x81]] []).transport = .writeOk :: .readOk [0x81] :: [] := ⟨⟨rfl, rfl, rfl⟩, rfl⟩

theorem test_witness_ReadJedecIdCommitsThreeBytes : Ready (ready [.writeOk, .readOk [0xEF, 0x40, 0x18]] []) ∧
    (ready [.writeOk, .readOk [0xEF, 0x40, 0x18]] []).transport = [.writeOk, .readOk [0xEF, 0x40, 0x18]] := ⟨⟨rfl, rfl, rfl⟩, rfl⟩

theorem test_witness_ReadUniqueIdCommitsEightBytes : Ready (ready [.writeOk, .readOk [1, 2, 3, 4, 5, 6, 7, 8]] []) ∧
    [1#8, 2, 3, 4, 5, 6, 7, 8].length = 8 ∧
    (ready [.writeOk, .readOk [1, 2, 3, 4, 5, 6, 7, 8]] []).transport = [.writeOk, .readOk [1, 2, 3, 4, 5, 6, 7, 8]] :=
  ⟨⟨rfl, rfl, rfl⟩, rfl, rfl⟩

/-- From reset and from a READY block. -/
theorem test_witness_InitConfiguresTheBlock :
    ({ State.reset with transport := [.rate 0] } : State).seqState = .idle ∧
    ({ State.reset with transport := [.rate 0] } : State).transport = [.rate 0] ∧
    (ready [.rate 0xFFFFFFFF] []).seqState = .idle ∧ (ready [.rate 0xFFFFFFFF] []).transport = [.rate 0xFFFFFFFF] := by decide

theorem test_witness_ResetSeqSendsThePairAndWaits : Ready (ready [.writeOk, .writeOk] [30]) ∧
    (ready [.writeOk, .writeOk] [30]).transport = [.writeOk, .writeOk] ∧ (ready [.writeOk, .writeOk] [30]).timer = [30] ∧ 30 ≤ 30 :=
  ⟨⟨rfl, rfl, rfl⟩, rfl, rfl, by decide⟩

theorem test_witness_LoadDeviceInfoCopiesTheBytesInOrder : Ready (ready infoDraws []) ∧
    [0xC1#8, 0xC2, 0xC3, 0xC4, 0xC5, 0xC6, 0xC7, 0xC8].length = 8 ∧
    (ready infoDraws []).transport = .writeOk :: .readOk [0xA1] :: .writeOk :: .readOk [0xB1, 0xB2, 0xB3] :: .writeOk ::
      .readOk [0xC1, 0xC2, 0xC3, 0xC4, 0xC5, 0xC6, 0xC7, 0xC8] :: .writeOk :: .readOk [0xD1] :: .writeOk :: .readOk [0xE1] ::
      .writeOk :: .readOk [0xF1] :: [] := ⟨⟨rfl, rfl, rfl⟩, rfl, rfl⟩

/-- POST_RESET_TEST's draws. -/
def testDraws (m j1 j2 r1 : Byte) : List TransportAnswer :=
  [.writeOk, .readOk [m], .writeOk, .readOk [0xEF, j1, j2], .writeOk, .readOk [r1]]

theorem test_witness_PostResetTestComparesTheIdentity (m j1 j2 r1 : Byte) : Ready (ready (testDraws m j1 j2 r1) []) ∧
    (ready (testDraws m j1 j2 r1) []).transport =
      .writeOk :: .readOk [m] :: .writeOk :: .readOk [0xEF, j1, j2] :: .writeOk :: .readOk [r1] :: [] := ⟨⟨rfl, rfl, rfl⟩, rfl⟩

/-- Each disjunct of the mismatch can hold alone. -/
theorem test_witness_IdentityMismatchIsNotAnError :
    Config.expMfr + 1 ≠ Config.expMfr ∧ Config.expMemtype + 1 ≠ Config.expMemtype ∧ Config.expCap + 1 ≠ Config.expCap ∧
    (0x01 : Byte).getLsbD 0 = true ∧ Ready (ready (testDraws 0 0 0 1) []) := by
  refine ⟨by simp, by simp, by simp, by decide, rfl, rfl, rfl⟩

theorem test_witness_DeviceIdIsAlwaysZero : (ready infoDraws []).seqState = .idle ∧
    ∃ t, exec .seqLoadDeviceInfo (ready infoDraws []) = .next t ∧ t.resultValid = true := ⟨rfl, _, rfl, rfl⟩

theorem test_witness_InitPerformsNoTransaction :
    ∃ t, exec .seqInit { State.reset with transport := [.rate 0] } = .next t ∧ t.resultValid = true := ⟨_, rfl, rfl⟩

/-- The first and the last transaction of LOAD_DEVICE_INFO, a fault before the first byte and one after the last, and a read fault. -/
theorem test_witness_FaultInAnyTransactionAborts :
    (Ready (ready [.writeFault 0] []) ∧ transactions .cmdReadUniqueId = ([] : List (Descriptor × List Byte)).map Prod.fst ++ rowReadUniqueId :: [] ∧
      5 ≤ rowReadUniqueId.writePhase.length ∧ (ready [.writeFault 5] []).transport = answersOf [] ++ .writeFault 5 :: []) ∧
    (transactions .seqLoadDeviceInfo =
      [(rowReleasePdId, [0xA1#8]), (rowReadJedecId, [0xB1, 0xB2, 0xB3]),
        (rowReadUniqueId, [0xC1, 0xC2, 0xC3, 0xC4, 0xC5, 0xC6, 0xC7, 0xC8]), (rowReadSr1, [0xD1]), (rowReadSr2, [0xE1])].map Prod.fst ++
        rowReadSr3 :: [] ∧
      (∀ x ∈ [(rowReleasePdId, [0xA1#8]), (rowReadJedecId, [0xB1, 0xB2, 0xB3]),
        (rowReadUniqueId, [0xC1, 0xC2, 0xC3, 0xC4, 0xC5, 0xC6, 0xC7, 0xC8]), (rowReadSr1, [0xD1]), (rowReadSr2, [0xE1])],
        x.2.length = x.1.readLen) ∧
      0 < rowReadSr3.readLen ∧
      (ready (infoDraws.take 11 ++ [.readFault]) []).transport =
        answersOf [(rowReleasePdId, [0xA1#8]), (rowReadJedecId, [0xB1, 0xB2, 0xB3]),
          (rowReadUniqueId, [0xC1, 0xC2, 0xC3, 0xC4, 0xC5, 0xC6, 0xC7, 0xC8]), (rowReadSr1, [0xD1]), (rowReadSr2, [0xE1])] ++
        .writeOk :: .readFault :: []) := by
  refine ⟨⟨⟨rfl, rfl, rfl⟩, ?_⟩, ?_⟩ <;> decide

theorem test_witness_NoPartialResults :
    (∃ t, exec .seqLoadDeviceInfo (ready (infoDraws.take 11 ++ [.readFault]) []) = .next t ∧ t.resultValid = false) ∧
    ∃ t, step (inFlight 0x0005 1 0) = .next t ∧ t.resultValid = false := ⟨⟨_, rfl, rfl⟩, _, rfl, rfl⟩

theorem test_witness_CommandFrame : isCmd .cmdReadSr2 = true ∧ Instr.cmdReadSr2 ≠ .cmdReadSr1 ∧ Instr.cmdReadSr2 ≠ .cmdReset ∧
    (∃ t, exec .cmdReadSr2 (ready [.writeOk, .readOk [0x01]] []) = .next t ∧ t.resultValid = true) ∧ 0x0F < 0x10 ∧ 0x1D ≤ 0x1D :=
  ⟨by decide, by decide, by decide, ⟨_, rfl, rfl⟩, by decide, by decide⟩

theorem test_witness_ResetSeqAndIsBusyFrame :
    (∃ t, exec .seqResetSeq (ready [.writeOk, .writeOk] [30]) = .next t ∧ t.resultValid = true) ∧
    (∃ t, exec .seqIsBusy (ready [.writeOk, .readOk [0x01]] []) = .next t ∧ t.resultValid = true) ∧ 0x0F < 0x10 ∧ 0x1D ≤ 0x1D :=
  ⟨⟨_, rfl, rfl⟩, ⟨_, rfl, rfl⟩, by decide, by decide⟩

theorem test_witness_LoadDeviceInfoFrame :
    (∃ t, exec .seqLoadDeviceInfo (ready infoDraws []) = .next t ∧ t.resultValid = true) ∧ 0x1D ≤ 0x1D := ⟨⟨_, rfl, rfl⟩, by decide⟩

theorem test_witness_PostResetTestFrame :
    (∃ t, exec .seqPostResetTest (ready (testDraws 0x17 0x40 0x18 0x00) []) = .next t ∧ t.resultValid = true) ∧
    0x0F < 0x10 ∧ 0x1D ≤ 0x1D := ⟨⟨_, rfl, rfl⟩, by decide, by decide⟩

theorem test_witness_InitFrame :
    (∃ t, exec .seqInit (ready [.rate 7] []) = .next t ∧ t.resultValid = true) ∧ 0x0F < 0x10 ∧ (0x1D ≤ 0x1F ∧ 0x1F < 0x20) ∧
    0x24 ≤ 0x24 := ⟨⟨_, rfl, rfl⟩, by decide, by decide, by decide⟩

theorem test_witness_OnlyInitCommitMakesReady :
    ∃ t, agentStep { inFlight 0x0101 9 0 with cfgState := .uninit } = some t ∧ t.cfgState ≠ .uninit := ⟨_, rfl, by decide⟩

theorem test_witness_SettleDelayPrecedesCompletion : (ready [.writeOk] [30]).seqState = .idle ∧
    ∃ t, exec .cmdReset (ready [.writeOk] [30]) = .next t ∧ t.resultValid = true := ⟨rfl, _, rfl, rfl⟩

theorem test_witness_TraceOnlyGrows :
    (∃ t, agentStep (inFlight 0x0066 0 0) = some t ∧ t.trace = [.csl]) ∧ ∃ t, step (ready [] []) = .next t :=
  ⟨⟨_, rfl, rfl⟩, _, rfl⟩

/-- Both clauses where they meet: the last readable span and the first past it. -/
theorem test_witness_MultiByteReadIsIndependentReads :
    0xFF + [State.reset].length ≤ 0x100 ∧ ([State.reset, State.reset] ≠ [] ∧ 0x100 < 0xFF + [State.reset, State.reset].length) := by
  decide

/-! Witnesses about the invariant and about reachable states. -/

/-- The response registers are empty after reset. -/
theorem test_reset_resp_padded : State.reset.respLen.toNat ≤ 8 ∧
    ∀ k, (h : k < 8) → State.reset.respLen.toNat ≤ k → State.reset.resp[k] = 0x00 := by decide

/-- A READY block with its Host's next word meets the invariant. -/
theorem test_ready_inv (ws : List ReqWord) (ts : List TransportAnswer) (tm : List Nat) :
    StateInv { ready ts tm with submissions := ws } where
  running h := by simp [ready, State.reset] at h
  framed := rfl
  performed h := by simp [ready, State.reset] at h
  readyPins _ := ⟨rfl, rfl, rfl, rfl⟩
  uninitPins h := by simp [ready] at h
  initProgress h := by simp [ready] at h
  txnCount h := by simp [ready, State.reset] at h
  sr1Staged h := by simp [ready, State.reset] at h
  validMeansSuccess _ := ⟨rfl, rfl⟩
  errRecord := .inr ⟨.inl rfl, rfl, rfl⟩
  respPadded := test_reset_resp_padded
  deviceIdZero := rfl

/-- Events a completed micro-op may emit: every byte read and every drawn rate 0. -/
def sample : MicroOp → List Event
  | .csl => [.csl]
  | .wr W => W.map .tx
  | .rd n _ => (List.replicate n 0x00).map .rx
  | .csh => [.csh]
  | .dly us => [.dly us]
  | .cfg hz => [.cfg (.configure hz 0)]
  | .fmt => [.cfg .setFormat]
  | .pinfn p => [.cfg (.assignBusFunction p)]
  | .outen ps => [.cfg (.configureAsOutput ps)]
  | .set p lvl => [.pin p lvl]
  | .commit => []

/-- They are such events. -/
theorem test_sample_performed (ops : List MicroOp) : Performed ops (ops.flatMap sample) := by
  induction ops with
  | nil => rfl
  | cons op ops ih =>
    refine ⟨sample op, ops.flatMap sample, by simp, ?_, ih⟩
    cases op <;> first | rfl | exact ⟨_, List.length_replicate, rfl⟩ | exact ⟨_, rfl⟩

/-- A block at the COMMIT of a request. -/
def atCommit (i : Instr) (stg : Vector Byte 15) (clk : Hz) (prt : Bool) : State :=
  { inFlight (encode i) (BitVec.ofNat 5 ((microProgram i).length - 1)) (BitVec.ofNat 3 (transactions i).length) with
    stg := stg, stgClk := clk, prtPass := prt, stgSr1v := (microProgram i).any MicroOp.isSr1Read
    trace := ((microProgram i).take ((microProgram i).length - 1)).flatMap sample }

/-- It stands there. -/
theorem test_atCommit_at (i : Instr) (stg : Vector Byte 15) (clk : Hz) (prt : Bool) :
    At i ((microProgram i).length - 1) (atCommit i stg clk prt) :=
  ⟨rfl, decode_encode i, (by cases i <;> decide : (BitVec.ofNat 5 ((microProgram i).length - 1)).toNat = (microProgram i).length - 1),
    by cases i <;> decide⟩

/-- What is done there. -/
theorem test_atCommit_done (i : Instr) : programPhase ((microProgram i).take ((microProgram i).length - 1)) = .closed ∧
    (BitVec.ofNat 3 (transactions i).length).toNat = ((microProgram i).take ((microProgram i).length - 1)).count .csh ∧
    (microProgram i).any MicroOp.isSr1Read = ((microProgram i).take ((microProgram i).length - 1)).any MicroOp.isSr1Read ∧
    tracePhase (((microProgram i).take ((microProgram i).length - 1)).flatMap sample) = some .closed := by
  cases i <;> decide

/-- It meets the invariant, whatever is staged. -/
theorem test_commit_inv (i : Instr) (stg : Vector Byte 15) (clk : Hz) (prt : Bool) : StateInv (atCommit i stg clk prt) where
  running _ := ⟨i, (test_atCommit_at i stg clk prt).dec,
    by rw [(test_atCommit_at i stg clk prt).upc]; exact (test_atCommit_at i stg clk prt).lt, fun _ => rfl⟩
  framed := by rw [(test_atCommit_at i stg clk prt).done, (test_atCommit_done i).1]; exact (test_atCommit_done i).2.2.2
  performed _ := ⟨[], _, rfl, by rw [(test_atCommit_at i stg clk prt).done]; exact test_sample_performed _⟩
  readyPins _ := by rw [(test_atCommit_at i stg clk prt).done, (test_atCommit_done i).1]; exact ⟨rfl, rfl, rfl, rfl⟩
  uninitPins h := by simp [atCommit, inFlight, ready] at h
  initProgress h := by simp [atCommit, inFlight, ready] at h
  txnCount _ := by rw [(test_atCommit_at i stg clk prt).done]; exact (test_atCommit_done i).2.1
  sr1Staged _ := by rw [(test_atCommit_at i stg clk prt).done]; exact (test_atCommit_done i).2.2.1
  validMeansSuccess h := by simp [atCommit, inFlight] at h
  errRecord := .inr ⟨.inl rfl, rfl, rfl⟩
  respPadded := test_reset_resp_padded
  deviceIdZero := rfl

/-- Every request can resume, from there, and succeed: the frames, DeviceIdIsAlwaysZero, InitPerformsNoTransaction,
SettleDelayPrecedesCompletion. -/
theorem test_witness_resumes (i : Instr) : ∃ s t, Resumes i s t ∧ t.seqState = .idle ∧ t.resultValid = true := by
  refine ⟨_, resume (atCommit i (Vector.replicate 15 0) 0 false), ⟨test_commit_inv i _ 0 false, rfl, decode_encode i, rfl⟩, ?_⟩
  cases i <;> exact ⟨rfl, rfl⟩

/-- DEVINFO changes at LOAD_DEVICE_INFO's COMMIT. -/
theorem test_witness_devInfo_written : ∃ s t, StateInv s ∧ agentStep s = some t ∧ t.devInfo ≠ s.devInfo :=
  ⟨_, _, test_commit_inv .seqLoadDeviceInfo (Vector.replicate 15 1) 0 false, rfl, by decide⟩

/-- PRT_PASS changes at POST_RESET_TEST's COMMIT: a set busy bit fails the test whatever the expected identity is. -/
theorem test_witness_prtPass_written : ∃ s t, StateInv s ∧ agentStep s = some t ∧ t.prtPass ≠ s.prtPass := by
  refine ⟨_, _, test_commit_inv .seqPostResetTest (Vector.replicate 15 1) 0 true, rfl, ?_⟩
  have h : ∀ a b c : Byte, identityMatches a b c 1 = false := fun a b c => by simp [identityMatches, busyBit]
  exact fun e => absurd ((h 1 1 1).symm.trans e) (by decide)

/-- CLK_ACTUAL changes at INIT's COMMIT. -/
theorem test_witness_clkActual_written : ∃ s t, StateInv s ∧ agentStep s = some t ∧ t.clkActual ≠ s.clkActual :=
  ⟨_, _, test_commit_inv .seqInit (Vector.replicate 15 0) 7 false, rfl, by decide⟩

/-- BUSY_FLAG changes at READ_SR1's COMMIT. -/
theorem test_witness_busyFlag_written : ∃ s t, StateInv s ∧ agentStep s = some t ∧ t.busyFlag ≠ s.busyFlag :=
  ⟨_, _, test_commit_inv .cmdReadSr1 (Vector.replicate 15 1) 0 false, rfl, by decide⟩

/-- AgentStepKeepsStateInv, StepKeepsStateInv and StepIsARunOfAgentSteps. -/
theorem test_witness_steps_of_inv :
    ∃ s, StateInv s ∧ (∃ t, agentStep s = some t) ∧ ∃ t, step s = .next t ∧ t.resultValid = true :=
  ⟨_, test_ready_inv [0x0005] [.writeOk, .readOk [0x01]] [], ⟨_, rfl⟩, _, rfl, rfl⟩

/-- Agent steps of a reachable state are reachable. -/
theorem reachable_steps : ∀ (n : Nat) {s t : State}, Reachable s → agentSteps n s = some t → Reachable t
  | 0, s, t, h, e => by simp only [agentSteps, Option.some.injEq] at e; exact e ▸ h
  | n + 1, s, t, h, e => by
    simp only [agentSteps] at e
    cases hs : agentStep s with
    | none => simp [hs] at e
    | some u => exact reachable_steps n (.agent h hs) (by simpa [hs] using e)

/-- Reset with INIT submitted and its clock draw supplied. -/
def bootInput : State := { State.reset with submissions := [0x0101], transport := [.rate 62500000] }

/-- The block after INIT's submission and ten micro-ops. -/
def booted : State := (agentSteps 11 bootInput).getD State.reset

theorem test_booted_reachable : Reachable booted := by
  refine reachable_steps 11 (.inputs [0x0101] [.rate 62500000] [] .reset) (?_ : agentSteps 11 bootInput = some booted)
  have h : (agentSteps 11 bootInput).isSome = true := by decide
  rw [booted]
  cases e : agentSteps 11 bootInput with
  | none => simp [e] at h
  | some t => rfl

/-- PinsInEveryReachableState (IDLE), HoldAndWriteProtectStayHigh and EveryReachableTraceIsFramed. -/
theorem test_witness_reachable_ready_idle : Reachable booted ∧ booted.cfgState = .ready ∧ booted.seqState = .idle :=
  ⟨test_booted_reachable, by decide, by decide⟩

/-- PinsInEveryReachableState (ACTIVE), and ChipSelectLowOpensTheWindow's reachable CSL. -/
theorem test_witness_reachable_csl : ∃ s, Reachable s ∧ s.cfgState = .ready ∧ s.seqState = .active ∧
    decode s.curReq = .request .cmdReadSr1 ∧ (microProgram .cmdReadSr1)[s.upc.toNat]? = some .csl := by
  have e : ∀ b : State, b.seqState = .idle → b.cfgState = .ready →
      agentStep { b with submissions := [0x0005], transport := [], timer := [] } =
        some (accept 0x0005 { b with submissions := [], transport := [], timer := [] }) := by
    intro b hi hr
    simp [agentStep, submit, hi, hr, present, (by decide : decode 5#16 = .request .cmdReadSr1)]
  exact ⟨_, (Reachable.inputs [0x0005] [] [] test_booted_reachable).agent (e booted (by decide) (by decide)),
    (by decide : booted.cfgState = .ready), rfl, (by decide : decode 0x0005 = .request .cmdReadSr1),
    (by decide : (microProgram .cmdReadSr1)[(0 : BitVec 5).toNat]? = some .csl)⟩

theorem test_witness_ChipSelectLowOpensTheWindow : (ready [] []).cs = .high ∧ State.reset.cs ≠ .high := by decide

theorem test_witness_HoldAndWriteProtectStayHigh :
    ∃ t, agentStep { inFlight 0x0101 7 0 with hold := .low } = some t ∧ t.hold ≠ .low := ⟨_, rfl, by decide⟩

/-- Two states that differ in results only, both stepping. -/
theorem test_witness_ResultsNeverSteerTheBus :
    (ready [.writeOk] []) ≠ { ready [.writeOk] [] with busyFlag := true } ∧
    (ready [.writeOk] []).eraseResults = ({ ready [.writeOk] [] with busyFlag := true } : State).eraseResults ∧
    (∃ s', step { ready [.writeOk] [] with submissions := [0x0066] } = .next s') ∧
    ∃ s', agentStep { ready [.writeOk] [] with submissions := [0x0066] } = some s' := ⟨by decide, rfl, ⟨_, rfl⟩, _, rfl⟩

end Sys2Proof.Tests
end

section
/-! SUPPORT. What one micro-op does to the pins, the counters and the window. -/

namespace Sys2Proof.Machine

/-! ### Pins -/

/-- The level of a pin is read from the three pin registers alone. -/
theorem State.level_congr {s t : State} (hc : t.cs = s.cs) (hh : t.hold = s.hold) (hw : t.wp = s.wp) (q : Pin) :
    t.level q = s.level q := by cases q <;> simp [State.level, hc, hh, hw]

/-- A pin that is HIGH stays HIGH through every micro-op but `CSL` on chip-select, as long as `SET` drives HIGH (R26, R140). -/
theorem microStep_keeps_high {i : Instr} {op : MicroOp} {s t : State} {q : Pin}
    (h : microStep (commitResults i) op s = some t) (hset : ∀ p lvl, op = .set p lvl → lvl = .high)
    (hcsl : op = .csl → q ≠ .cs) (hq : s.level q = .high) : t.level q = .high := by
  have same {u : State} (hc : u.cs = s.cs) (hh : u.hold = s.hold) (hw : u.wp = s.wp) : u.level q = .high :=
    (State.level_congr hc hh hw q).trans hq
  have raised {u : State} (hc : u.cs = .high) (hh : u.hold = s.hold) (hw : u.wp = s.wp) : u.level q = .high := by
    cases q <;> simp_all [State.level]
  rcases microStep_cases h with ⟨rfl, -, rfl⟩ | ⟨W, rest, rfl, -, rfl⟩ | ⟨W, k, rest, rfl, -, -, rfl⟩ |
    ⟨n, slot, d, rest, rfl, -, -, rfl⟩ | ⟨n, slot, rest, rfl, -, rfl⟩ | ⟨rfl, rfl⟩ | ⟨us, u, rest, rfl, -, -, rfl⟩ |
    ⟨hz, a, rest, rfl, -, rfl⟩ | ⟨rfl, rfl⟩ | ⟨p, rfl, rfl⟩ | ⟨ps, rfl, rfl⟩ | ⟨p, lvl, rfl, rfl⟩ | ⟨rfl, rfl⟩
  · have := hcsl rfl
    cases q <;> simp_all [State.level]
  · exact same rfl rfl rfl
  · exact raised rfl rfl rfl
  · exact same rfl rfl rfl
  · exact raised rfl rfl rfl
  · exact raised rfl rfl rfl
  · exact same rfl rfl rfl
  · exact same rfl rfl rfl
  · exact same rfl rfl rfl
  · exact same rfl rfl rfl
  · refine (State.level_congr (s := driveOutputs s.freeCount ps s) rfl rfl rfl q).trans ?_
    simp [driveOutputs_level, hq]
  · refine (State.level_congr (s := s.setLevel p lvl) rfl rfl rfl q).trans ?_
    simp [State.level_setLevel, hset p lvl rfl, hq]
  · obtain ⟨-, -, -, -, hcs, hhold, hwp, -⟩ := commitResults_frame i s
    exact same hcs hhold hwp

/-- `SET` leaves its manual pin at the level it names. -/
theorem microStep_set_level {i : Instr} {p : Pin} {lvl : Level} {s t : State}
    (h : microStep (commitResults i) (.set p lvl) s = some t) (hp : p.manual = true) : t.level p = lvl := by
  obtain rfl : ((s.setLevel p lvl).emit [.pin p lvl]).advance = t := by simpa [microStep] using h
  refine (State.level_congr (s := s.setLevel p lvl) rfl rfl rfl p).trans ?_
  simp [State.level_setLevel, hp]

/-! ### What a micro-op that goes on writes -/

/-- A micro-op that leaves the block ACTIVE moves chip-select at `CSL` and `CSH` and not inside a window, counts a window at `CSH`,
marks an SR1 read and sets the format at `FMT` (R102, R105, R24, R29, R27). -/
theorem microStep_goes_on {i : Instr} {op : MicroOp} {s t : State} (h : microStep (commitResults i) op s = some t)
    (ha : t.seqState = .active) :
    (op = .csl → t.cs = .low) ∧ (op = .csh → t.cs = .high) ∧
    ((∃ W, op = .wr W) ∨ (∃ n slot, op = .rd n slot) → t.cs = s.cs) ∧
    t.txnIdx = (if op = .csh then s.txnIdx + 1 else s.txnIdx) ∧ t.stgSr1v = (s.stgSr1v || op.isSr1Read) ∧
    t.busFmt = (if op = .fmt then busFormat else s.busFmt) := by
  rcases microStep_cases h with ⟨rfl, -, rfl⟩ | ⟨W, rest, rfl, -, rfl⟩ | ⟨W, k, rest, rfl, -, -, rfl⟩ |
    ⟨n, slot, d, rest, rfl, -, -, rfl⟩ | ⟨n, slot, rest, rfl, -, rfl⟩ | ⟨rfl, rfl⟩ | ⟨us, u, rest, rfl, -, -, rfl⟩ |
    ⟨hz, a, rest, rfl, -, rfl⟩ | ⟨rfl, rfl⟩ | ⟨p, rfl, rfl⟩ | ⟨ps, rfl, rfl⟩ | ⟨p, lvl, rfl, rfl⟩ | ⟨rfl, rfl⟩ <;>
    simp [MicroOp.isSr1Read] at ha ⊢

/-- The level of chip-select in a window phase: LOW exactly inside a window (R41). -/
def WindowPhase.csLevel (ph : WindowPhase) : Level := if ph = .closed then .high else .low

/-- `SET` stands only in INIT and drives a manual pin HIGH (R140). -/
theorem placed_set {i : Instr} {before : List MicroOp} {p : Pin} {lvl : Level} (h : placed i before (.set p lvl) = true) :
    i = .seqInit ∧ p.manual = true ∧ lvl = .high := by simp [placed] at h; tauto

/-- `CSL` stands in no INIT (R141). -/
theorem placed_csl {i : Instr} {before : List MicroOp} (h : placed i before .csl = true) : i ≠ .seqInit := by
  simp [placed] at h; tauto

/-- `CSH` closes one of a request's at most six windows (R24). -/
theorem placed_csh {i : Instr} {before : List MicroOp} (h : placed i before .csh = true) : before.count .csh ≤ 5 := by
  simp [placed] at h; tauto

/-- A micro-op that is not one of a window's own stands outside every window (R106). -/
theorem placed_closed {i : Instr} {before : List MicroOp} {op : MicroOp} (h : placed i before op = true)
    (hwr : ∀ W, op ≠ .wr W) (hrd : ∀ n slot, op ≠ .rd n slot) (hcsh : op ≠ .csh) : programPhase before = .closed := by
  cases op <;> simp [placed] at h hwr hrd hcsh <;> tauto

/-- A phase stands where a window has been opened and nothing read, in one of a request's at most six transactions (R101, R24). -/
theorem placed_phase {i : Instr} {before : List MicroOp} {op : MicroOp} (h : placed i before op = true)
    (hop : (∃ W, op = .wr W) ∨ ∃ n slot, op = .rd n slot) :
    programPhase before = .writing ∧ i ≠ .seqInit ∧ before.count .csh ≤ 5 := by
  rcases hop with ⟨W, rfl⟩ | ⟨n, slot, rfl⟩ <;> simp [placed] at h <;> tauto

/-- A placed micro-op that leaves the block ACTIVE keeps chip-select LOW exactly inside a window (R41, R102, R105). -/
theorem microStep_cs {i : Instr} {before : List MicroOp} {op : MicroOp} {s t : State}
    (h : microStep (commitResults i) op s = some t) (hp : placed i before op = true) (ha : t.seqState = .active)
    (hcs : s.cs = (programPhase before).csLevel) : t.cs = (programPhase (before ++ [op])).csLevel := by
  obtain ⟨hcsl, hcsh, hphase, -⟩ := microStep_goes_on h ha
  rw [programPhase_append]
  cases op with
  | csl => exact hcsl rfl
  | csh => exact hcsh rfl
  | wr W => exact (hphase (.inl ⟨W, rfl⟩)).trans hcs
  | rd n slot =>
    rw [hphase (.inr ⟨n, slot, rfl⟩), hcs, (placed_phase hp (.inr ⟨n, slot, rfl⟩)).1]
    rfl
  | _ =>
    have hc := placed_closed hp (by simp) (by simp) (by simp)
    rw [hc] at hcs ⊢
    exact microStep_keeps_high (q := .cs) h (fun p lvl e => (placed_set (e ▸ hp)).2.2) (by simp) hcs

/-! ### What a micro-op that goes on emits -/

/-- The events of a placed micro-op lead the trace to the window phase the micro-program is then in (R106). -/
theorem did_framed {i : Instr} {before : List MicroOp} {op : MicroOp} {es : List Event} (hp : placed i before op = true)
    (hd : op.did es) : es.foldlM WindowPhase.event (programPhase before) = some (programPhase (before ++ [op])) := by
  rw [programPhase_append]
  cases op with
  | wr W =>
    obtain rfl : es = W.map .tx := hd
    have hw : programPhase before = .writing := by simp [placed] at hp; tauto
    rw [hw]; exact foldlM_tx W
  | rd n slot =>
    obtain ⟨d, hl, rfl⟩ := hd
    have hw : programPhase before = .writing := by simp [placed] at hp; tauto
    have hn : 1 ≤ n := by simp [placed] at hp; tauto
    rw [hw]
    cases d with
    | nil => simp at hl; omega
    | cons b d => exact foldlM_rx d
  | csh =>
    obtain rfl : es = [.csh] := hd
    have hw : programPhase before = .writing ∨ programPhase before = .reading := by simp [placed] at hp; tauto
    rcases hw with hw | hw <;> rw [hw] <;> rfl
  | commit =>
    obtain rfl : es = [] := hd
    rfl
  | cfg hz =>
    obtain ⟨a, rfl⟩ := hd
    have hw : programPhase before = .closed := by simp [placed] at hp; tauto
    rw [hw]; rfl
  | _ =>
    cases hd
    have hw : programPhase before = .closed := by simp [placed] at hp; tauto
    rw [hw]; rfl

end Sys2Proof.Machine
end

section
/-! SUPPORT. The invariant of the block's states, kept by every micro-op, submission and environment input. -/

namespace Sys2Proof.Machine

/-! ### The invariant where no micro-op runs -/

/-- Every byte of the response register is 0x00 at block reset (R43). -/
theorem reset_resp_zero : ∀ k, (h : k < 8) → State.reset.resp[k] = 0x00 := by decide

/-- The invariant holds right after block reset (R43). -/
theorem stateInv_reset : StateInv State.reset where
  running h := by simp [State.reset] at h
  framed := rfl
  performed h := by simp [State.reset] at h
  readyPins h := by simp [State.reset] at h
  uninitPins _ _ := ⟨rfl, rfl, rfl, rfl⟩
  initProgress _ := ⟨fun p lvl h => by simp [done_idle (s := State.reset) rfl] at h,
    fun h => by simp [done_idle (s := State.reset) rfl] at h⟩
  txnCount h := by simp [State.reset] at h
  sr1Staged h := by simp [State.reset] at h
  validMeansSuccess h := by simp [State.reset] at h
  errRecord := .inr ⟨.inl rfl, rfl, rfl⟩
  respPadded := ⟨by decide, fun k h _ => reset_resp_zero k h⟩
  deviceIdZero := rfl

/-- The invariant does not speak of the environment's pending inputs (R9). -/
theorem StateInv.inputs {s : State} (h : StateInv s) (ws : List ReqWord) (ts : List TransportAnswer) (us : List Nat) :
    StateInv { s with submissions := ws, transport := ts, timer := us } :=
  { h with }

/-- A rejection keeps the invariant (R173, R174). -/
theorem StateInv.reject {s : State} {code : Byte} (h : StateInv s) (hi : s.seqState = .idle) (hc : code = 0x02 ∨ code = 0x03) :
    StateInv (reject code s) where
  running ha := by simp [hi] at ha
  framed := h.framed
  performed ha := by simp [hi] at ha
  readyPins := h.readyPins
  uninitPins := h.uninitPins
  initProgress := h.initProgress
  txnCount ha := by simp [hi] at ha
  sr1Staged ha := by simp [hi] at ha
  validMeansSuccess hv := by simp at hv
  errRecord := .inr ⟨.inr hc, rfl, rfl⟩
  respPadded := h.respPadded
  deviceIdZero := h.deviceIdZero

/-- The acceptance of a request that may run keeps the invariant (R171). -/
theorem StateInv.accept {s : State} {w : ReqWord} {i : Instr} (h : StateInv s) (hi : s.seqState = .idle)
    (hd : decode w = .request i) (hr : s.cfgState = .ready ∨ i = .seqInit) : StateInv (accept w s) := by
  have hlt : 0 < (microProgram i).length := by cases i <;> decide
  have hat : At i 0 (Machine.accept w s) := ⟨rfl, hd, rfl, hlt⟩
  have hnil : (Machine.accept w s).done = [] := hat.done
  have hdone : (Machine.accept w s).done = s.done := hnil.trans (done_idle hi).symm
  exact {
    running := fun _ => ⟨i, hd, hlt, fun hne => hr.resolve_right hne⟩
    framed := by rw [hdone]; exact h.framed
    performed := fun _ => ⟨s.trace, [], by simp, by rw [hnil]; rfl⟩
    readyPins := by rw [hdone]; exact h.readyPins
    uninitPins := fun _ ha => by simp at ha
    initProgress := fun _ => by simp [hnil]
    txnCount := fun _ => by simp [hnil]
    sr1Staged := fun _ => by simp [hnil]
    validMeansSuccess := fun hv => by simp at hv
    errRecord := h.errRecord
    respPadded := h.respPadded
    deviceIdZero := h.deviceIdZero }

/-! ### The invariant at a micro-op -/

/-- A request other than INIT runs in a READY block (R174). -/
theorem StateInv.ready_of_running {i : Instr} {k : Nat} {s : State} (h : StateInv s) (hat : At i k s) (hne : i ≠ .seqInit) :
    s.cfgState = .ready := by
  obtain ⟨j, hd, -, hr⟩ := h.running hat.act
  obtain rfl : i = j := Decoded.request.inj (hat.dec.symm.trans hd)
  exact hr hne

/-- Before READY only INIT runs (R174). -/
theorem StateInv.init_of_uninit {i : Instr} {k : Nat} {s : State} (h : StateInv s) (hat : At i k s)
    (hu : s.cfgState = .uninit) : i = .seqInit := by
  by_contra hne
  simp [h.ready_of_running hat hne] at hu

/-- The micro-op about to run is placed after those done. -/
theorem At.placed {i : Instr} {k : Nat} {s : State} (hat : At i k s) :
    Machine.placed i s.done ((microProgram i)[k]'hat.lt) = true := by
  rw [hat.done]; exact microProgram_placed i k hat.lt

/-- A `SET` that is done drove its pin HIGH (R140). -/
theorem At.set_done {i : Instr} {k : Nat} {s : State} {p : Pin} {lvl : Level} (hat : At i k s) (h : .set p lvl ∈ s.done) :
    lvl = .high := by
  rw [hat.done] at h
  obtain ⟨j, hj, hjeq⟩ := List.mem_iff_getElem.1 (List.mem_of_mem_take h)
  exact (placed_set (hjeq ▸ microProgram_placed i j hj)).2.2

/-- A micro-op that leaves the block ACTIVE keeps the invariant. -/
theorem StateInv.goes_on {i : Instr} {k : Nat} {s t : State} (h : StateInv s) (hat : At i k s)
    (hs : microStep (commitResults i) ((microProgram i)[k]'hat.lt) s = some t) (ha : t.seqState = .active) : StateInv t := by
  obtain ⟨hat', hne, hdone⟩ := hat.next hs ha
  have hp := hat.placed
  generalize (microProgram i)[k]'hat.lt = op at hs hne hdone hp
  obtain ⟨-, -, -, hresults, -, -, -, hends⟩ := microStep_frame hs
  obtain ⟨hdev, hresp, hlen, -, -, -, hcfg⟩ := hresults hne
  obtain ⟨-, -, hvalid, hcode, htxn, hphase⟩ := (hends hne).resolve_right (fun e => by simp [e.2.1] at ha)
  obtain ⟨-, -, -, hidx, hsr1, hfmt⟩ := microStep_goes_on hs ha
  obtain ⟨fs, htrace, hdid⟩ := microStep_did hs ha
  have hset : ∀ p lvl, op = .set p lvl → lvl = .high := fun p lvl e => (placed_set (e ▸ hp)).2.2
  have keepHigh (p : Pin) (hp : s.level p = .high) (hcs : op = .csl → p ≠ .cs) := microStep_keeps_high hs hset hcs hp
  exact {
    running := fun _ => ⟨i, hat'.dec, hat'.upc ▸ hat'.lt, fun hne => hcfg.trans (h.ready_of_running hat hne)⟩
    framed := by rw [htrace, tracePhase_append, h.framed, hdone]; exact did_framed hp hdid
    performed := fun _ => by
      obtain ⟨before, es, he, hperf⟩ := h.performed hat.act
      exact ⟨before, es ++ fs, by rw [htrace, he, List.append_assoc], hdone ▸ performed_snoc hperf hdid⟩
    readyPins := fun hr => by
      obtain ⟨hcs, hhold, hwp, hbus⟩ := h.readyPins (hcfg ▸ hr)
      refine ⟨hdone ▸ microStep_cs hs hp ha hcs, keepHigh .hold hhold (by simp), keepHigh .wp hwp (by simp), ?_⟩
      rw [hfmt, hbus, ite_self]
    uninitPins := fun _ hi => by simp [ha] at hi
    initProgress := fun hu => by
      obtain ⟨hpins, hbus⟩ := h.initProgress (hcfg ▸ hu)
      have hinit := h.init_of_uninit hat (hcfg ▸ hu)
      rw [hdone]
      refine ⟨fun p lvl hm => ?_, fun hm => ?_⟩
      · rcases List.mem_append.1 hm with hm | hm
        · obtain rfl := hat.set_done hm
          exact keepHigh p (hpins p _ hm) (fun e => absurd hinit (placed_csl (e ▸ hp)))
        · obtain rfl := List.mem_singleton.1 hm
          exact microStep_set_level hs (placed_set hp).2.1
      · rw [hfmt]
        rcases List.mem_append.1 hm with hm | hm
        · rw [hbus hm, ite_self]
        · rw [if_pos (List.mem_singleton.1 hm).symm]
    txnCount := fun _ => by
      have hc := h.txnCount hat.act
      rw [hdone, List.count_append, hidx]
      by_cases hop : op = .csh
      · have := placed_csh (hop ▸ hp)
        simp [hop, hc, BitVec.toNat_add]
        omega
      · simp [hop, hc]
    sr1Staged := fun _ => by rw [hsr1, h.sr1Staged hat.act, hdone]; simp
    validMeansSuccess := fun hv => by simp [hvalid, h.not_valid hat.act] at hv
    errRecord := by rw [hcode, htxn, hphase]; exact h.errRecord
    respPadded := by rw [hlen, hresp]; exact h.respPadded
    deviceIdZero := by rw [hdev]; exact h.deviceIdZero }

/-- At INIT's `COMMIT` everything INIT sets is done (R140). -/
theorem At.init_done {k : Nat} {s : State} (hat : At .seqInit k s) (hc : (microProgram .seqInit)[k]'hat.lt = .commit) :
    .set .cs .high ∈ s.done ∧ .set .hold .high ∈ s.done ∧ .set .wp .high ∈ s.done ∧ .fmt ∈ s.done := by
  have hk : k + 1 = (microProgram .seqInit).length := (commit_iff_last _ k hat.lt).1 hc
  obtain rfl : k = 9 := Nat.succ.inj hk
  rw [hat.done]
  decide

/-- At a `COMMIT` that leaves the block READY the pins and the bus format are as INIT set them (R41, R26, R27). -/
theorem StateInv.commit_pins {i : Instr} {k : Nat} {s : State} (h : StateInv s) (hat : At i k s)
    (hc : (microProgram i)[k]'hat.lt = .commit) (hclosed : programPhase s.done = .closed) :
    s.cs = .high ∧ s.hold = .high ∧ s.wp = .high ∧ s.busFmt = busFormat := by
  cases hcfg : s.cfgState with
  | ready => simpa [hclosed] using h.readyPins hcfg
  | uninit =>
    obtain rfl := h.init_of_uninit hat hcfg
    obtain ⟨hpins, hbus⟩ := h.initProgress hcfg
    obtain ⟨hcs, hhold, hwp, hfmt⟩ := hat.init_done hc
    exact ⟨hpins _ _ hcs, hpins _ _ hhold, hpins _ _ hwp, hbus hfmt⟩

/-- The abort of a phase keeps the invariant: the window closes after its `FAULT`, and ERR_TXN is the ordinal of one of at most six
transactions (R176, R106). -/
theorem StateInv.abort {i : Instr} {k : Nat} {s : State} {ph : Phase} {es : List Event} (h : StateInv s) (hat : At i k s)
    (rest : List TransportAnswer) (hne : i ≠ .seqInit) (hcount : s.done.count .csh ≤ 5) (hphase : programPhase s.done = .writing)
    (hes : es.foldlM WindowPhase.event .writing = some .writing) :
    StateInv (abort ph ({ s with transport := rest }.emit es)) := by
  have hready := h.ready_of_running hat hne
  obtain ⟨-, hhold, hwp, hbus⟩ := h.readyPins hready
  have hdone : (Machine.abort ph ({ s with transport := rest }.emit es)).done = [] := done_idle rfl
  exact {
    running := fun ha => by simp at ha
    framed := by
      rw [hdone, abort_trace, State.emit_trace, List.append_assoc, tracePhase_append]
      simp only [h.framed, hphase, Option.bind_some, List.foldlM_append, hes]
      rfl
    performed := fun ha => by simp at ha
    readyPins := fun _ => ⟨by rw [hdone]; rfl, hhold, hwp, hbus⟩
    uninitPins := fun hu => by simp [hready] at hu
    initProgress := fun hu => by simp [hready] at hu
    txnCount := fun ha => by simp at ha
    sr1Staged := fun ha => by simp at ha
    validMeansSuccess := fun hv => by simp at hv
    errRecord := .inl ⟨rfl, by
      have := h.txnCount hat.act
      simp
      omega, by cases ph <;> simp [phaseCode]⟩
    respPadded := h.respPadded
    deviceIdZero := h.deviceIdZero }

/-- Every `commit_results` writes a response of at most eight bytes padded with 0x00 (R31). -/
theorem commitResults_padded (i : Instr) (s : State) : (commitResults i s).respLen.toNat ≤ 8 ∧
    ∀ k, (h : k < 8) → (commitResults i s).respLen.toNat ≤ k → (commitResults i s).resp[k] = 0x00 := by
  obtain ⟨b, s', hb, hresp, hlen⟩ := commitResults_resp i s
  obtain ⟨hl, hpad⟩ := setResp_padded b s' hb
  rw [hresp, hlen]
  exact ⟨hl ▸ hb, hpad⟩

/-- No `commit_results` writes another DEVICE_ID than 0x00 (R144). -/
theorem commitResults_deviceId (i : Instr) (s : State) (h : s.devInfo[1] = 0x00) : (commitResults i s).devInfo[1] = 0x00 := by
  by_cases hi : i = .seqLoadDeviceInfo
  · subst hi; rfl
  · rw [(commitResults_writers i s).1 hi]; exact h

/-- `COMMIT` keeps the invariant (R108). -/
theorem StateInv.commit {i : Instr} {k : Nat} {s : State} (h : StateInv s) (hat : At i k s)
    (hc : (microProgram i)[k]'hat.lt = .commit) : StateInv (finishCommit (commitResults i s)) := by
  have hclosed : programPhase s.done = .closed := placed_closed (hc ▸ hat.placed) (by simp) (by simp) (by simp)
  obtain ⟨hcs, hhold, hwp, hbus⟩ := h.commit_pins hat hc hclosed
  obtain ⟨-, -, -, -, fcs, fhold, fwp, fbus, -, -, ftrace, -⟩ := commitResults_frame i s
  have hdone : (finishCommit (commitResults i s)).done = [] := done_idle rfl
  have hready : (finishCommit (commitResults i s)).cfgState = .ready := by
    by_cases hi : i = .seqInit
    · exact ((commitResults_writers i s).2.2.2 hi).2
    · exact ((commitResults_writers i s).2.2.1 hi).2.trans (h.ready_of_running hat hi)
  exact {
    running := fun ha => by simp at ha
    framed := by rw [hdone, finishCommit_trace, ftrace, h.framed, hclosed]; rfl
    performed := fun ha => by simp at ha
    readyPins := fun _ => ⟨by rw [hdone]; exact fcs.trans hcs, fhold.trans hhold, fwp.trans hwp, fbus.trans hbus⟩
    uninitPins := fun hu => by rw [hready] at hu; cases hu
    initProgress := fun hu => by rw [hready] at hu; cases hu
    txnCount := fun ha => by simp at ha
    sr1Staged := fun ha => by simp at ha
    validMeansSuccess := fun _ => ⟨rfl, rfl⟩
    errRecord := .inr ⟨.inl rfl, rfl, rfl⟩
    respPadded := commitResults_padded i s
    deviceIdZero := commitResults_deviceId i s h.deviceIdZero }

/-- A micro-op that ends the request without `COMMIT` is the abort of a phase: what stood in the window before it were `TX` events (R103,
R104, R176). -/
theorem microStep_aborts {i : Instr} {op : MicroOp} {s t : State} (h : microStep (commitResults i) op s = some t)
    (hc : op ≠ .commit) (ha : s.seqState = .active) (hi : t.seqState = .idle) :
    ((∃ W, op = .wr W) ∨ ∃ n slot, op = .rd n slot) ∧
    ∃ ph sent rest, t = Machine.abort ph ({ s with transport := rest }.emit (List.map .tx sent)) := by
  rcases microStep_cases h with ⟨rfl, -, rfl⟩ | ⟨W, rest, rfl, -, rfl⟩ | ⟨W, k, rest, rfl, -, -, rfl⟩ |
    ⟨n, slot, d, rest, rfl, -, -, rfl⟩ | ⟨n, slot, rest, rfl, -, rfl⟩ | ⟨rfl, rfl⟩ | ⟨us, u, rest, rfl, -, -, rfl⟩ |
    ⟨hz, a, rest, rfl, -, rfl⟩ | ⟨rfl, rfl⟩ | ⟨p, rfl, rfl⟩ | ⟨ps, rfl, rfl⟩ | ⟨p, lvl, rfl, rfl⟩ | ⟨rfl, rfl⟩
  case inr.inr.inl => exact ⟨.inl ⟨W, rfl⟩, .write, W.take k, rest, rfl⟩
  case inr.inr.inr.inr.inl => exact ⟨.inr ⟨n, slot, rfl⟩, .read, [], rest, by simp [State.emit]⟩
  all_goals simp_all

/-- Every micro-op keeps the invariant: it goes on, commits or aborts. -/
theorem StateInv.microStep {i : Instr} {k : Nat} {s t : State} (h : StateInv s) (hat : At i k s)
    (hs : Machine.microStep (commitResults i) ((microProgram i)[k]'hat.lt) s = some t) : StateInv t := by
  by_cases ha : t.seqState = .active
  · exact h.goes_on hat hs ha
  by_cases hc : (microProgram i)[k]'hat.lt = .commit
  · obtain rfl := commit_of_step (hc ▸ hs)
    exact h.commit hat hc
  · obtain ⟨hop, ph, sent, rest, rfl⟩ := microStep_aborts hs hc hat.act (idle_of_not_active ha)
    obtain ⟨hphase, hne, hcount⟩ := placed_phase hat.placed hop
    exact h.abort hat rest hne hcount hphase (foldlM_tx sent)

/-! ### The invariant at a step -/

/-- What a submission can do: an illegal word is rejected, a request before INIT is rejected, any other is accepted (R172). -/
theorem submit_outcomes {w : ReqWord} {s t : State} (h : submit w s = some t) : s.seqState = .idle ∧
    ((∃ code, (code = 0x02 ∨ code = 0x03) ∧ t = Machine.reject code s) ∨
      ∃ i, decode w = .request i ∧ (s.cfgState = .ready ∨ i = .seqInit) ∧ t = Machine.accept w s) := by
  have hi := (submit_cases h).1
  refine ⟨hi, ?_⟩
  cases hd : decode w with
  | illegal why =>
    rw [submit_illegal hi hd] at h
    exact .inl ⟨0x02, .inl rfl, (Option.some.inj h).symm⟩
  | request i =>
    rw [submit_request hi hd] at h
    by_cases hp : s.cfgState = .ready ∨ w = initWord
    · have hr : s.cfgState = .ready ∨ i = .seqInit := hp.imp_right fun (hw : w = encode .seqInit) =>
        Decoded.request.inj (hd.symm.trans (hw ▸ decode_encode .seqInit))
      rw [present_accepts hp] at h
      exact .inr ⟨i, rfl, hr, (Option.some.inj h).symm⟩
    · obtain ⟨hc, hne⟩ := not_or.1 hp
      have hu : s.cfgState = .uninit := by cases hq : s.cfgState <;> simp_all
      rw [present_rejects hu hne] at h
      exact .inl ⟨0x03, .inr rfl, (Option.some.inj h).symm⟩

/-- A submission keeps the invariant. -/
theorem StateInv.submit {w : ReqWord} {s t : State} (h : StateInv s) (hs : Machine.submit w s = some t) : StateInv t := by
  obtain ⟨hi, ⟨code, hc, rfl⟩ | ⟨i, hd, hr, rfl⟩⟩ := submit_outcomes hs
  · exact h.reject hi hc
  · exact h.accept hi hd hr

/-- Settles O54: an agent step is a micro-op at the place the block stands or a submission, and each keeps the invariant. -/
theorem agentStepKeepsStateInv : Obligations.AgentStepKeepsStateInv := by
  intro s t h hs
  rcases agentStep_cases hs with ⟨i, k, hat, hm⟩ | ⟨-, w, rest, -, hw⟩
  · exact h.microStep hat hm
  · exact (h.inputs rest s.transport s.timer).submit hw

/-- The run of a request from where it stands keeps the invariant. -/
theorem StateInv.runOps {i : Instr} {k : Nat} {s : State} (h : StateInv s) (hat : At i k s) :
    StateInv (Machine.runOps (commitResults i) ((microProgram i).drop k) s) :=
  runOps_at (P := StateInv) (fun _ _ _ hat h hs => h.microStep hat hs) k s hat h

/-- A submitted request keeps the invariant. -/
theorem StateInv.exec {i : Instr} {s t : State} (h : StateInv s) (he : Machine.exec i s = .next t) : StateInv t := by
  rcases exec_cases he with ⟨-, rfl⟩ | ⟨hi, -, -, rfl⟩ | ⟨hi, hr, rfl⟩
  · exact h
  · exact h.reject hi (.inr rfl)
  · exact (h.accept hi (decode_encode i) hr).runOps (accept_at i s)

/-- Settles O55: a step resumes the running request, waits, rejects an illegal word or runs the submitted request. -/
theorem stepKeepsStateInv : Obligations.StepKeepsStateInv := by
  intro s t h hs
  by_cases ha : s.seqState = .active
  · obtain ⟨i, hd, hk, -⟩ := h.running ha
    obtain ⟨hat, rfl⟩ : At i s.upc.toNat s ∧ t = Machine.runOps (commitResults i) ((microProgram i).drop s.upc.toNat) s :=
      Resumes.eq ⟨h, ha, hd, hs⟩
    exact h.runOps hat
  have hi := idle_of_not_active ha
  cases hq : s.submissions with
  | nil =>
    obtain rfl : s = t := by simpa [step_idle_nil hi hq] using hs
    exact h
  | cons w rest =>
    have h' := h.inputs rest s.transport s.timer
    cases hd : decode w with
    | illegal why =>
      obtain rfl : Machine.reject errIllegalRequest { s with submissions := rest } = t := by
        simpa [step_illegal hi hq hd] using hs
      exact h'.reject hi (.inl rfl)
    | request i =>
      rw [step_request hi hq hd] at hs
      exact h'.exec hs

/-- Settles O53: the base case of the invariant. -/
theorem resetMeetsStateInv : Obligations.ResetMeetsStateInv := stateInv_reset

end Sys2Proof.Machine
end

section
/-! SUPPORT. Noninterference: no step reads a result register (R39). -/

namespace Sys2Proof.Machine

/-! ### Each operation on a state with its results erased -/

/-- Setting a pin and erasing the results commute. -/
theorem setLevel_eraseResults (s : State) (p : Pin) (lvl : Level) :
    s.eraseResults.setLevel p lvl = (s.setLevel p lvl).eraseResults := by cases p <;> rfl

/-- A pin's level is no result. -/
theorem level_eraseResults (s : State) (p : Pin) : s.eraseResults.level p = s.level p := State.level_congr rfl rfl rfl p

/-- `OUTEN` on the pins and erasing the results commute. -/
theorem driveOutputs_eraseResults (n : Nat) (ps : List Pin) (s : State) :
    driveOutputs n ps s.eraseResults = (driveOutputs n ps s).eraseResults := by
  induction ps generalizing s with
  | nil => rfl
  | cons p ps ih =>
    rw [driveOutputs, driveOutputs, level_eraseResults]
    split
    · rw [setLevel_eraseResults, ih]
    · exact ih s

/-- What a `commit_results` writes outside the results does not depend on them (R108). -/
theorem commitResults_eraseResults (i : Instr) (s : State) :
    (commitResults i s.eraseResults).eraseResults = (commitResults i s).eraseResults := by cases i <;> rfl

/-- `COMMIT` writes results and ends the request. -/
theorem finishCommit_eraseResults (s : State) :
    (finishCommit s).eraseResults = { s.eraseResults with seqState := .idle } := rfl

/-- A write phase does not read the results. -/
theorem writePhase_eraseResults (W : List Byte) (s : State) :
    (writePhase W s.eraseResults).map State.eraseResults = (writePhase W s).map State.eraseResults := by
  unfold writePhase
  rw [show s.eraseResults.transport = s.transport from rfl]
  split
  · rfl
  · split <;> rfl
  · rfl

/-- A read phase does not read the results. -/
theorem readPhase_eraseResults (n slot : Nat) (s : State) :
    (readPhase n slot s.eraseResults).map State.eraseResults = (readPhase n slot s).map State.eraseResults := by
  unfold readPhase
  rw [show s.eraseResults.transport = s.transport from rfl]
  split
  · split <;> rfl
  · rfl
  · rfl

/-- No micro-op reads the results (R39). -/
theorem microStep_eraseResults (i : Instr) (op : MicroOp) (s : State) :
    (microStep (commitResults i) op s.eraseResults).map State.eraseResults =
      (microStep (commitResults i) op s).map State.eraseResults := by
  cases op with
  | csl =>
    simp only [microStep, show s.eraseResults.cs = s.cs from rfl]
    split <;> rfl
  | wr W => exact writePhase_eraseResults W s
  | rd n slot => exact readPhase_eraseResults n slot s
  | dly us =>
    simp only [microStep, show s.eraseResults.timer = s.timer from rfl]
    split
    · split <;> rfl
    · rfl
  | cfg hz =>
    simp only [microStep, show s.eraseResults.transport = s.transport from rfl]
    split <;> rfl
  | outen ps =>
    simp only [microStep, driveOutputs_eraseResults]
    rfl
  | set p lvl =>
    simp only [microStep, setLevel_eraseResults]
    rfl
  | commit => simp [microStep, finishCommit_eraseResults, commitResults_eraseResults]
  | _ => rfl

/-! ### Two runs side by side -/

/-- Two optional states, where both are there, differ in results only, and they are there together. -/
theorem exists_of_map_eraseResults {a b : Option State} (h : a.map State.eraseResults = b.map State.eraseResults) {s : State}
    (ha : a = some s) : ∃ t, b = some t ∧ s.eraseResults = t.eraseResults := by
  subst ha
  obtain ⟨t, hb, ht⟩ := Option.map_eq_some_iff.1 h.symm
  exact ⟨t, hb, ht.symm⟩

section TwoRuns
variable {s t : State}

/-- What decides the next step is no result: two states that differ in results only agree on it. -/
theorem sameBus_control (h : s.eraseResults = t.eraseResults) :
    s.seqState = t.seqState ∧ s.cfgState = t.cfgState ∧ s.submissions = t.submissions ∧ s.curReq = t.curReq ∧ s.upc = t.upc ∧
    s.nextOp = t.nextOp := by
  have agree {α : Type} (f : State → α) : f s.eraseResults = f t.eraseResults := congrArg f h
  exact ⟨agree State.seqState, agree State.cfgState, agree State.submissions, agree State.curReq, agree State.upc,
    agree State.nextOp⟩

/-- The result registers steer no micro-op. -/
theorem microStep_sameBus (i : Instr) (op : MicroOp) (h : s.eraseResults = t.eraseResults) :
    (microStep (commitResults i) op s).map State.eraseResults = (microStep (commitResults i) op t).map State.eraseResults := by
  rw [← microStep_eraseResults, h, microStep_eraseResults]

/-- The result registers steer no run of micro-ops. -/
theorem runOps_sameBus (i : Instr) (ops : List MicroOp) (h : s.eraseResults = t.eraseResults) :
    (runOps (commitResults i) ops s).eraseResults = (runOps (commitResults i) ops t).eraseResults := by
  induction ops generalizing s t with
  | nil => exact h
  | cons op ops ih =>
    have hop := microStep_sameBus i op h
    cases hs : microStep (commitResults i) op s with
    | none =>
      have ht : microStep (commitResults i) op t = none := by simpa [hs, eq_comm] using hop
      rw [runOps_none hs, runOps_none ht, h]
    | some s' =>
      obtain ⟨t', ht, h'⟩ := exists_of_map_eraseResults hop hs
      have hseq := (sameBus_control h').1
      by_cases ha : s'.seqState = .active
      · rw [runOps_active hs ha, runOps_active ht (hseq ▸ ha)]
        exact ih h'
      · have hi := idle_of_not_active ha
        rw [runOps_idle hs hi, runOps_idle ht (hseq ▸ hi), h']

/-- A rejection writes results only (R173). -/
theorem reject_eraseResults (code : Byte) (s : State) : (reject code s).eraseResults = s.eraseResults := rfl

/-- An acceptance and erasing the results commute, RESULT_VALID being one of them (R171). -/
theorem accept_eraseResults (w : ReqWord) (s : State) : (accept w s).eraseResults = accept w s.eraseResults := rfl

/-- The result registers decide no acceptance (R172). -/
theorem present_sameBus (w : ReqWord) (h : s.eraseResults = t.eraseResults) :
    (present w s).eraseResults = (present w t).eraseResults := by
  obtain ⟨-, hcfg, -⟩ := sameBus_control h
  unfold present
  rw [hcfg]
  split
  · exact h
  · rw [accept_eraseResults, h, accept_eraseResults]

/-- The result registers steer no submission. -/
theorem submit_sameBus (w : ReqWord) (h : s.eraseResults = t.eraseResults) :
    (submit w s).map State.eraseResults = (submit w t).map State.eraseResults := by
  have hseq := (sameBus_control h).1
  by_cases ha : s.seqState = .active
  · rw [submit_active ha, submit_active (hseq ▸ ha)]
  · have hi := idle_of_not_active ha
    cases hd : decode w with
    | illegal why => rw [submit_illegal hi hd, submit_illegal (hseq ▸ hi) hd]; exact congrArg some h
    | request i => rw [submit_request hi hd, submit_request (hseq ▸ hi) hd]; exact congrArg some (present_sameBus w h)

/-- Two states that differ in results only still do so when the Host's next words are set alike. -/
theorem withSubmissions_sameBus (ws : List ReqWord) (h : s.eraseResults = t.eraseResults) :
    ({ s with submissions := ws } : State).eraseResults = ({ t with submissions := ws } : State).eraseResults :=
  congrArg (fun u : State => { u with submissions := ws }) h

/-- The result registers steer no agent step. -/
theorem agentStep_sameBus (h : s.eraseResults = t.eraseResults) :
    (agentStep s).map State.eraseResults = (agentStep t).map State.eraseResults := by
  obtain ⟨hseq, -, hsub, -, -, hnext⟩ := sameBus_control h
  by_cases ha : s.seqState = .active
  · rw [agentStep_active ha, agentStep_active (hseq ▸ ha)]
    unfold blockStep
    rw [hnext]
    split
    · rfl
    · exact microStep_sameBus _ _ h
  · have hi := idle_of_not_active ha
    cases hw : s.submissions with
    | nil => rw [agentStep_idle_nil hi hw, agentStep_idle_nil (hseq ▸ hi) (hsub ▸ hw)]
    | cons w rest =>
      rw [agentStep_idle_cons hi hw, agentStep_idle_cons (hseq ▸ hi) (hsub ▸ hw)]
      exact submit_sameBus w (withSubmissions_sameBus rest h)

/-- The result registers steer no submitted request. -/
theorem exec_sameBus (i : Instr) {s' t' : State} (h : s.eraseResults = t.eraseResults) (hs : exec i s = .next s')
    (ht : exec i t = .next t') : s'.eraseResults = t'.eraseResults := by
  have hseq := (sameBus_control h).1
  have hp := present_sameBus (encode i) h
  have hpseq := (sameBus_control hp).1
  rw [exec_eq, Host.Outcome.next.injEq] at hs ht
  subst hs ht
  by_cases ha : s.seqState = .active
  · simpa only [runRequest, ha, ← hseq] using h
  · have hi := idle_of_not_active ha
    rw [runRequest_idle hi, runRequest_idle (hseq ▸ hi), hpseq]
    split
    · exact hp
    · exact runOps_sameBus i _ hp

/-- The result registers steer no resumption. -/
theorem resume_sameBus (h : s.eraseResults = t.eraseResults) : (resume s).eraseResults = (resume t).eraseResults := by
  obtain ⟨-, -, -, hcur, hupc, -⟩ := sameBus_control h
  unfold resume
  rw [hcur, hupc]
  split
  · exact h
  · exact runOps_sameBus _ _ h

/-- The result registers steer no step of the machine. -/
theorem step_sameBus {s' t' : State} (h : s.eraseResults = t.eraseResults) (hs : step s = .next s') (ht : step t = .next t') :
    s'.eraseResults = t'.eraseResults := by
  obtain ⟨hseq, -, hsub, -⟩ := sameBus_control h
  by_cases ha : s.seqState = .active
  · rw [step_active ha, Host.Outcome.next.injEq] at hs
    rw [step_active (hseq ▸ ha), Host.Outcome.next.injEq] at ht
    rw [← hs, ← ht, resume_sameBus h]
  have hi := idle_of_not_active ha
  have hi' : t.seqState = .idle := hseq ▸ hi
  cases hw : s.submissions with
  | nil =>
    rw [step_idle_nil hi hw, Host.Outcome.next.injEq] at hs
    rw [step_idle_nil hi' (hsub ▸ hw), Host.Outcome.next.injEq] at ht
    rw [← hs, ← ht, h]
  | cons w rest =>
    have hw' : t.submissions = w :: rest := hsub ▸ hw
    have h' := withSubmissions_sameBus rest h
    cases hd : decode w with
    | illegal why =>
      rw [step_illegal hi hw hd, Host.Outcome.next.injEq] at hs
      rw [step_illegal hi' hw' hd, Host.Outcome.next.injEq] at ht
      rw [← hs, ← ht, reject_eraseResults, reject_eraseResults, h']
    | request i =>
      rw [step_request hi hw hd] at hs
      rw [step_request hi' hw' hd] at ht
      exact exec_sameBus i h' hs ht

end TwoRuns

/-- Settles O60: every step and every agent step sends states with equal bus-relevant parts to such states. -/
theorem resultsNeverSteerTheBus : Obligations.ResultsNeverSteerTheBus := fun _ _ h =>
  ⟨fun _ _ => step_sameBus h, fun _ => exists_of_map_eraseResults (agentStep_sameBus h)⟩

end Sys2Proof.Machine
end

section
/-! SUPPORT. Who writes the registers, the pins of reachable states, and the result space. -/

namespace Sys2Proof.Machine

/-! ### Which agent steps write what -/

/-- A submission writes no result register but RESULT_VALID and ERR_*, no pin and not CFG_STATE (R171, R173). -/
theorem submit_frame {w : ReqWord} {s t : State} (h : submit w s = some t) :
    SameResults s t ∧ t.hold = s.hold ∧ t.wp = s.wp := by
  obtain ⟨-, ⟨code, rfl⟩ | rfl⟩ := submit_cases h <;> simp [SameResults]

/-- An agent step that changes a result register, RESULT_VALID and ERR_* apart, or CFG_STATE is the `COMMIT` of the running request
(R21, R108). -/
theorem agentStep_commits {s t : State} (h : agentStep s = some t) (hne : ¬ SameResults s t) :
    ∃ i k, ∃ hat : At i k s, (microProgram i)[k]'hat.lt = .commit ∧ t = finishCommit (commitResults i s) := by
  rcases agentStep_cases h with ⟨i, k, hat, hm⟩ | ⟨-, w, rest, -, hw⟩
  · obtain ⟨-, -, -, hsame, -⟩ := microStep_frame hm
    have hc : (microProgram i)[k]'hat.lt = .commit := by
      by_contra hc
      exact hne (hsame hc)
    exact ⟨i, k, hat, hc, commit_of_step (hc ▸ hm)⟩
  · exact absurd (submit_frame hw).1 hne

/-- Settles O45: the step is a `COMMIT`, and only INIT's `commit_results` writes CFG_STATE. -/
theorem onlyInitCommitMakesReady : Obligations.OnlyInitCommitMakesReady := by
  refine ⟨rfl, fun s => rfl, fun s t h hne => ?_⟩
  obtain ⟨i, k, hat, hc, rfl⟩ := agentStep_commits h (fun ⟨_, _, _, _, _, _, hcfg⟩ => hne hcfg)
  obtain ⟨-, -, hothers, hinit⟩ := commitResults_writers i s
  have hi : i = .seqInit := by
    by_contra hi
    exact hne (hothers hi).2
  have hready : (finishCommit (commitResults i s)).cfgState = .ready := (hinit hi).2
  have hu : s.cfgState = .uninit := by cases hs : s.cfgState <;> simp_all
  subst hi
  refine ⟨hu, hready, hat.act, hat.dec, ?_⟩
  rw [hat.upc, ← hc]
  exact List.getElem?_eq_getElem hat.lt

/-- A request that has staged an SR1 byte is one of the four that read SR1 (R32). -/
theorem StateInv.sr1_requests {i : Instr} {k : Nat} {s : State} (h : StateInv s) (hat : At i k s) (hv : s.stgSr1v = true) :
    i = .cmdReadSr1 ∨ i = .seqIsBusy ∨ i = .seqLoadDeviceInfo ∨ i = .seqPostResetTest := by
  rw [h.sr1Staged hat.act, hat.done] at hv
  obtain ⟨op, hm, hr⟩ := List.any_eq_true.1 hv
  cases op with
  | rd n slot =>
    obtain rfl : slot = 12 := by simpa [MicroOp.isSr1Read] using hr
    exact rd12_mem_microProgram (List.mem_of_mem_take hm)
  | _ => simp [MicroOp.isSr1Read] at hr

/-- Settles O46: the step is a `COMMIT`, each `commit_results` has its own registers, and BUSY_FLAG needs a staged SR1 byte. -/
theorem onlyTheNamedCommitsWriteResults : Obligations.OnlyTheNamedCommitsWriteResults := by
  intro s t hinv h
  by_cases hsame : SameResults s t
  · obtain ⟨hdev, -, -, hbusy, hprt, hclk, -⟩ := hsame
    simp [hdev, hbusy, hprt, hclk]
  obtain ⟨i, k, hat, hc, rfl⟩ := agentStep_commits h hsame
  obtain ⟨hdev, hprt, hclk, -⟩ := commitResults_writers i s
  obtain ⟨-, -, -, -, -, -, -, -, fstg, fsr1v, -, -, -, -, fbusy, -⟩ := commitResults_frame i s
  refine ⟨fun _ => hat.act, fun hne => ?_, fun hne => ?_, fun hne => ?_, fun hne => ?_⟩
  · obtain rfl : i = .seqLoadDeviceInfo := by
      by_contra hi
      exact hne (hdev hi)
    exact ⟨hat.dec, rfl, rfl⟩
  · obtain rfl : i = .seqPostResetTest := by
      by_contra hi
      exact hne (hprt hi)
    exact ⟨hat.dec, rfl, rfl⟩
  · obtain rfl : i = .seqInit := by
      by_contra hi
      exact hne (hclk hi).1
    exact ⟨hat.dec, rfl, rfl⟩
  · rw [finishCommit_busyFlag, fsr1v, fbusy] at hne ⊢
    have hv : s.stgSr1v = true := by
      by_contra hv
      simp [hv] at hne
    refine ⟨⟨i, hat.dec, hinv.sr1_requests hat hv⟩, ?_, rfl, rfl⟩
    rw [if_pos hv, State.stgAt_lt _ 12 (by decide)]
    simp only [fstg]
    rfl

/-! ### Reachable states -/

/-- The invariant holds of every reachable state. -/
theorem Reachable.stateInv {s : State} (h : Reachable s) : StateInv s := by
  induction h with
  | reset => exact stateInv_reset
  | agent _ hs ih => exact agentStepKeepsStateInv _ _ ih hs
  | inputs ws ts us _ ih => exact ih.inputs ws ts us

/-- Settles O56: while IDLE no window is open, and the invariant ties chip-select to the window. -/
theorem pinsInEveryReachableState : Obligations.PinsInEveryReachableState := by
  refine fun s h => ⟨fun hr hi => ?_, fun hr _ => ?_⟩
  · obtain ⟨hcs, hhold, hwp, -⟩ := h.stateInv.readyPins hr
    rw [done_idle hi] at hcs
    exact ⟨hcs, hhold, hwp⟩
  · rw [(h.stateInv.readyPins hr).1]
    by_cases hc : programPhase s.done = .closed <;> simp [hc]

/-- Only INIT has micro-ops that can move HOLD or WP (R26, R140). -/
theorem placed_init_of_moves {i : Instr} {before : List MicroOp} {op : MicroOp} (h : placed i before op = true)
    (hop : (∃ p lvl, op = .set p lvl) ∨ ∃ ps, op = .outen ps) : i = .seqInit := by
  rcases hop with ⟨p, lvl, rfl⟩ | ⟨ps, rfl⟩ <;> simp [placed] at h <;> tauto

/-- Settles O57: `SET` and `OUTEN` stand in INIT alone, and the invariant has both pins HIGH once READY. -/
theorem holdAndWriteProtectStayHigh : Obligations.HoldAndWriteProtectStayHigh := by
  refine ⟨rfl, rfl, fun s t h hne => ?_, fun s h hr => ?_⟩
  · rcases agentStep_cases h with ⟨i, k, hat, hm⟩ | ⟨-, w, rest, -, hw⟩
    · obtain ⟨-, -, -, -, -, hpins, -⟩ := microStep_frame hm
      have hi : i = .seqInit := by
        by_contra hi
        obtain ⟨hhold, hwp⟩ := hpins
          (fun p lvl e => hi (placed_init_of_moves hat.placed (.inl ⟨p, lvl, e⟩)))
          (fun ps e => hi (placed_init_of_moves hat.placed (.inr ⟨ps, e⟩)))
        exact hne.elim (· hhold) (· hwp)
      exact ⟨hat.act, hi ▸ hat.dec⟩
    · obtain ⟨-, hhold, hwp⟩ := submit_frame hw
      exact (hne.elim (· hhold) (· hwp)).elim
  · obtain ⟨-, hhold, hwp, -⟩ := h.stateInv.readyPins hr
    exact ⟨hhold, hwp⟩

/-! ### The result space -/

/-- The bytes of DEVINFO (R36). -/
theorem rsByte_devInfo (s : State) (k : Nat) (h : k < 16) : s.rsByte k = s.devInfo[k] := by
  simp [State.rsByte, h]

/-- The bytes of RESP (R36). -/
theorem rsByte_resp (s : State) (k : Nat) (h : k < 8) : s.rsByte (0x10 + k) = s.resp[k] := by
  have hlt : 0x10 + k < 0x18 := by omega
  simp [State.rsByte, hlt, h]

/-- The reserved offsets below CLK_ACTUAL (R36). -/
theorem rsByte_reserved_low (s : State) (a : Nat) (h1 : 0x1D ≤ a) (h2 : a ≤ 0x1F) : s.rsByte a = 0x00 := by
  obtain rfl | rfl | rfl : a = 0x1D ∨ a = 0x1E ∨ a = 0x1F := by omega
  all_goals rfl

/-- The reserved offsets above CLK_ACTUAL (R36). -/
theorem rsByte_reserved_high (s : State) (a : Nat) (h : 0x24 ≤ a) : s.rsByte a = 0x00 := by
  unfold State.rsByte
  repeat rw [if_neg (by omega)]

/-- The four bytes of CLK_ACTUAL, little-endian (R36). -/
theorem rsByte_clkActual (s : State) :
    (s.rsByte 0x23 ++ s.rsByte 0x22 ++ s.rsByte 0x21 ++ s.rsByte 0x20 : BitVec 32) = s.clkActual := by
  change (s.clkActual.extractLsb' 24 8 ++ s.clkActual.extractLsb' 16 8 ++ s.clkActual.extractLsb' 8 8
    ++ s.clkActual.extractLsb' 0 8 : BitVec 32) = s.clkActual
  rw [BitVec.extractLsb'_append_extractLsb'_eq_extractLsb' (by decide),
    BitVec.extractLsb'_append_extractLsb'_eq_extractLsb' (by decide),
    BitVec.extractLsb'_append_extractLsb'_eq_extractLsb' (by decide)]
  exact BitVec.extractLsb'_eq_self

/-- Settles O49, range by range. -/
theorem resultSpaceMap : Obligations.ResultSpaceMap := by
  refine fun s => ⟨fun a ha => ?_, rsByte_devInfo s, rsByte_resp s, rfl, rfl, rfl, rfl, rfl, rsByte_reserved_low s,
    rsByte_clkActual s, fun a ha _ => rsByte_reserved_high s a ha⟩
  exact if_pos (by omega)

/-- The bits of the FLAGS byte (R38). -/
theorem flagsByte_bits (s : State) :
    (flagsByte s).getLsbD 0 = s.busyFlag ∧ (flagsByte s).getLsbD 1 = s.prtPass ∧ (flagsByte s).getLsbD 2 = s.resultValid ∧
    (flagsByte s).getLsbD 3 = (s.cfgState == .ready) ∧ (flagsByte s).getLsbD 4 = (s.seqState == .active) ∧
    (flagsByte s).getLsbD 5 = false ∧ (flagsByte s).getLsbD 6 = false ∧ (flagsByte s).getLsbD 7 = false := by
  simp only [flagsByte, BitVec.getLsbD_append]
  simp

/-- Settles O50: the byte at 0x19 is the FLAGS byte. -/
theorem flagsByteBits : Obligations.FlagsByteBits := by
  refine ⟨fun s => ?_, rfl⟩
  rw [show s.rsByte 0x19 = flagsByte s from rfl]
  obtain ⟨hbusy, hprt, hvalid, hready, hactive, h5, h6, h7⟩ := flagsByte_bits s
  exact ⟨hbusy, hprt, hvalid, by rw [hready, beq_iff_eq], by rw [hactive, beq_iff_eq], h5, h6, h7⟩

/-- Settles O52: each value stands in the definition of the reset state. -/
theorem resetStateValues : Obligations.ResetStateValues := by
  unfold Obligations.ResetStateValues
  decide

end Sys2Proof.Machine
end

section
/-! SUPPORT. The trace only grows, and what a multi-byte Host read answers. -/

namespace Sys2Proof.Machine

/-! ### The trace only grows -/

/-- What a step of the machine can do: resume, wait, reject an illegal word, or run the request the next word decodes to. -/
theorem step_cases {s t : State} (h : step s = .next t) :
    (s.seqState = .active ∧ t = resume s) ∨
    (s.seqState = .idle ∧ s.submissions = [] ∧ t = s) ∨
    (s.seqState = .idle ∧ ∃ w rest, s.submissions = w :: rest ∧
      ((∃ why, decode w = .illegal why ∧ t = reject errIllegalRequest { s with submissions := rest }) ∨
        ∃ i, decode w = .request i ∧ exec i { s with submissions := rest } = .next t)) := by
  by_cases ha : s.seqState = .active
  · rw [step_active ha, Host.Outcome.next.injEq] at h
    exact .inl ⟨ha, h.symm⟩
  have hi := idle_of_not_active ha
  cases hq : s.submissions with
  | nil =>
    rw [step_idle_nil hi hq, Host.Outcome.next.injEq] at h
    exact .inr (.inl ⟨hi, rfl, h.symm⟩)
  | cons w rest =>
    refine .inr (.inr ⟨hi, w, rest, rfl, ?_⟩)
    cases hd : decode w with
    | illegal why =>
      rw [step_illegal hi hq hd, Host.Outcome.next.injEq] at h
      exact .inl ⟨why, rfl, h.symm⟩
    | request i => exact .inr ⟨i, rfl, by rwa [step_request hi hq hd] at h⟩

/-- A micro-op appends to the trace (R62). -/
theorem microStep_trace_prefix {i : Instr} {op : MicroOp} {s t : State} (h : microStep (commitResults i) op s = some t) :
    s.trace <+: t.trace := by
  obtain ⟨-, -, ⟨es, htrace⟩, -⟩ := microStep_frame h
  exact ⟨es, htrace.symm⟩

/-- A run of micro-ops appends to the trace. -/
theorem runOps_trace_prefix {i : Instr} {ops : List MicroOp} {s : State} (ha : s.seqState = .active) :
    s.trace <+: (runOps (commitResults i) ops s).trace :=
  runOps_keeps (P := fun u => s.trace <+: u.trace) (fun _ _ _ _ _ hu hm => hu.trans (microStep_trace_prefix hm)) ha
    (List.prefix_refl _)

/-- A submission leaves the trace (R171, R173). -/
theorem submit_trace {w : ReqWord} {s t : State} (h : submit w s = some t) : t.trace = s.trace := by
  obtain ⟨-, ⟨code, rfl⟩ | rfl⟩ := submit_cases h
  · exact reject_trace s code
  · exact accept_trace s w

/-- An agent step appends to the trace. -/
theorem agentStep_trace_prefix {s t : State} (h : agentStep s = some t) : s.trace <+: t.trace := by
  rcases agentStep_cases h with ⟨i, k, hat, hm⟩ | ⟨-, w, rest, -, hw⟩
  · exact microStep_trace_prefix hm
  · rw [submit_trace hw]

/-- A submitted request appends to the trace. -/
theorem exec_trace_prefix {i : Instr} {s t : State} (h : exec i s = .next t) : s.trace <+: t.trace :=
  exec_keeps (P := fun u => s.trace <+: u.trace) h (List.prefix_refl _) (List.prefix_refl _) (List.prefix_refl _)
    fun _ _ _ _ _ hu hm => hu.trans (microStep_trace_prefix hm)

/-- A resumption appends to the trace. -/
theorem resume_trace_prefix {s : State} (ha : s.seqState = .active) : s.trace <+: (resume s).trace := by
  unfold resume
  split
  · exact List.prefix_refl _
  · exact runOps_trace_prefix ha

/-- A step of the machine appends to the trace. -/
theorem step_trace_prefix {s t : State} (h : step s = .next t) : s.trace <+: t.trace := by
  rcases step_cases h with ⟨ha, rfl⟩ | ⟨-, -, rfl⟩ | ⟨-, w, rest, -, ⟨why, -, rfl⟩ | ⟨i, -, he⟩⟩
  · exact resume_trace_prefix ha
  · exact List.prefix_refl _
  · exact List.prefix_refl _
  · exact exec_trace_prefix (s := { s with submissions := rest }) he

/-- Settles O48: the old trace is a prefix of the new one after every agent step and every step. -/
theorem traceOnlyGrows : Obligations.TraceOnlyGrows := by
  refine ⟨fun s t h => ?_, fun s t h => ?_⟩
  · obtain ⟨es, he⟩ := agentStep_trace_prefix h
    exact ⟨es, he.symm⟩
  · obtain ⟨es, he⟩ := step_trace_prefix h
    exact ⟨es, he.symm⟩

/-! ### Host reads of several bytes -/

/-- A read that begins inside RS is its first byte followed by the read of the rest (R57). -/
theorem memRead_cons_inside {s : State} {ss : List State} {addr : Nat} (h : addr < 0x100) :
    memRead (s :: ss) addr = (memRead ss (addr + 1)).map (s.rsByte addr :: ·) := by
  simp only [memRead, State.hostRead, if_pos h]
  cases memRead ss (addr + 1) <;> rfl

/-- A read that begins past RS is a fault (R57). -/
theorem memRead_cons_outside {s : State} {ss : List State} {addr : Nat} (h : 0x100 ≤ addr) :
    memRead (s :: ss) addr = .error (.outsideResultSpace addr) := by
  simp only [memRead, State.hostRead, if_neg (not_lt.2 h)]
  rfl

/-- A read inside RS takes the `k`-th byte from the `k`-th state (R57, I19). -/
theorem memRead_inside (ss : List State) (addr : Nat) (h : addr + ss.length ≤ 0x100) :
    memRead ss addr = .ok (ss.mapIdx fun k s => s.rsByte (addr + k)) := by
  induction ss generalizing addr with
  | nil => rfl
  | cons s ss ih =>
    rw [List.length_cons] at h
    rw [memRead_cons_inside (by omega), ih (addr + 1) (by omega), List.mapIdx_cons]
    simp [Except.map, Nat.add_assoc, Nat.add_comm 1]

/-- A read that passes 0xFF faults at its first offset that is no RS address (R57). -/
theorem memRead_outside (ss : List State) (addr : Nat) (hne : ss ≠ []) (h : 0x100 < addr + ss.length) :
    memRead ss addr = .error (.outsideResultSpace (max addr 0x100)) := by
  induction ss generalizing addr with
  | nil => exact absurd rfl hne
  | cons s ss ih =>
    rw [List.length_cons] at h
    by_cases ha : addr < 0x100
    · have hss : ss ≠ [] := List.ne_nil_of_length_pos (by omega)
      have hmax : max (addr + 1) 0x100 = max addr 0x100 := by omega
      rw [memRead_cons_inside ha, ih (addr + 1) hss (by omega), hmax]
      rfl
    · rw [memRead_cons_outside (not_lt.1 ha), max_eq_left (not_lt.1 ha)]

/-- Settles O51: inside RS the read is the list of its single bytes, and past RS it is a fault. -/
theorem multiByteReadIsIndependentReads : Obligations.MultiByteReadIsIndependentReads := by
  refine fun ss addr => ⟨fun h => ⟨_, memRead_inside ss addr h, List.length_mapIdx, fun k hk => ?_⟩,
    fun hne h => ⟨max addr 0x100, by omega, memRead_outside ss addr hne h⟩⟩
  simp [hk]

end Sys2Proof.Machine
end

section
/-! SUPPORT. The decoder and the encoder: the two fields of a request word, which words decode to a request, and which are illegal. -/

namespace Sys2Proof

/-! ### The fields of a word -/

/-- A word is its CLASS followed by its CODE: R70's fields leave no bit out. -/
theorem reqClass_append_reqCode (w : ReqWord) : reqClass w ++ reqCode w = w :=
  (BitVec.extractLsb'_append_extractLsb'_eq_extractLsb' rfl).trans BitVec.extractLsb'_eq_self

/-- A word with the fields of a request is that request's word. -/
theorem eq_encode_of_fields {w : ReqWord} {i : Instr} (hclass : reqClass w = encodeClass i) (hcode : reqCode w = encodeCode i) :
    w = encode i := by
  rw [← reqClass_append_reqCode w, hclass, hcode, encode]

/-! ### Decoding by class -/

/-- CLASS is that of CMD, that of SEQ, or reserved (R71). -/
theorem class_cases (cls : Byte) : cls = 0x00 ∨ cls = 0x01 ∨ 2 ≤ cls.toNat := by bv_omega

/-- A CMD word is decoded by its opcode (R75). -/
theorem decode_of_cmd {w : ReqWord} (h : reqClass w = 0x00) : decode w = decodeCmd (reqCode w) := if_pos h

/-- A SEQ word is decoded by its sequence number (R75). -/
theorem decode_of_seq {w : ReqWord} (h : reqClass w = 0x01) : decode w = decodeSeq (reqCode w) := by
  simp [decode, h]

/-- A word of a reserved CLASS is illegal (R71, R80). -/
theorem decode_of_reserved {w : ReqWord} (h : 2 ≤ (reqClass w).toNat) : decode w = .illegal (.reservedClass (reqClass w)) := by
  have hcmd : reqClass w ≠ 0x00 := by bv_omega
  have hseq : reqClass w ≠ 0x01 := by bv_omega
  rw [decode, if_neg hcmd, if_neg hseq]

/-! ### Decoding to a request -/

/-- A CODE that decodes to a CMD request is that request's opcode (R73). -/
theorem fields_of_decodeCmd {code : Byte} {i : Instr} (h : decodeCmd code = .request i) :
    encodeClass i = 0x00 ∧ encodeCode i = code := by
  unfold decodeCmd at h
  split_ifs at h <;> cases h <;> simp [encodeClass, encodeCode, *]

/-- A CODE that decodes to a SEQ request is that request's sequence number (R74). -/
theorem fields_of_decodeSeq {code : Byte} {i : Instr} (h : decodeSeq code = .request i) :
    encodeClass i = 0x01 ∧ encodeCode i = code := by
  unfold decodeSeq at h
  split_ifs at h <;> cases h <;> simp [encodeClass, encodeCode, *]

/-- A word that decodes to a request has that request's fields, so it is its word. -/
theorem eq_encode_of_decode {w : ReqWord} {i : Instr} (h : decode w = .request i) : w = encode i := by
  rcases class_cases (reqClass w) with hw | hw | hw
  · obtain ⟨hclass, hcode⟩ := fields_of_decodeCmd (decode_of_cmd hw ▸ h)
    exact eq_encode_of_fields (hw.trans hclass.symm) hcode.symm
  · obtain ⟨hclass, hcode⟩ := fields_of_decodeSeq (decode_of_seq hw ▸ h)
    exact eq_encode_of_fields (hw.trans hclass.symm) hcode.symm
  · cases (decode_of_reserved hw).symm.trans h

/-- Decoding and encoding are inverse on the requests (R75). -/
theorem decode_eq_request_iff {w : ReqWord} {i : Instr} : decode w = .request i ↔ w = encode i := by
  refine ⟨eq_encode_of_decode, ?_⟩
  rintro rfl
  exact Machine.decode_encode i

/-- No two requests share a word, since each is what its word decodes to. -/
theorem encode_injective : Function.Injective encode := fun i _ h =>
  Decoded.request.inj ((Machine.decode_encode i).symm.trans (decode_eq_request_iff.2 h))

/-- Settles O1: the fields of a word decide what it decodes to, and they are the request's own. -/
theorem decodeReadsExactlyTheThirteenWords : Obligations.DecodeReadsExactlyTheThirteenWords :=
  ⟨fun _ _ => decode_eq_request_iff, fun _ _ h => encode_injective h, rfl⟩

/-! ### Table words -/

/-- A word that decodes to a request is that request in the table. -/
theorem decodeTableWord_request {w : ReqWord} {i : Instr} (h : decode w = .request i) : decodeTableWord 16 w.toNat = some i := by
  simp [decodeTableWord, w.isLt, h]

/-- An illegal word is no request of the table. -/
theorem decodeTableWord_illegal {w : ReqWord} {why : IllegalReason} (h : decode w = .illegal why) :
    decodeTableWord 16 w.toNat = none := by
  simp [decodeTableWord, h]

/-- Each request is read back from its own table word. -/
theorem decodeTableWord_encode (i : Instr) : decodeTableWord 16 (encode i).toNat = some i :=
  decodeTableWord_request (Machine.decode_encode i)

/-- Every command row a request sends fits the block (R6, R73). -/
theorem instr_wellFormed (i : Instr) : i.wellFormed = true := by cases i <;> decide

/-- Settles O2: each request's rows fit the block, and both decoders read it back from its word. -/
theorem decodeOfEncodeIsTheRequest : Obligations.DecodeOfEncodeIsTheRequest := fun i =>
  ⟨instr_wellFormed i, Machine.decode_encode i, decodeTableWord_encode i⟩

/-! ### The illegal words -/

/-- The eight opcodes of the CMD requests, in the order of R73. -/
def cmdOpcodes : List Byte := [0x66, 0x99, 0xAB, 0x9F, 0x4B, 0x05, 0x35, 0x15]

/-- A CMD word is illegal exactly when its CODE is none of the eight opcodes (R80). -/
theorem decodeCmd_eq_illegal_iff {code : Byte} {why : IllegalReason} :
    decodeCmd code = .illegal why ↔ code ∉ cmdOpcodes ∧ why = .unusedCmdCode code := by
  unfold decodeCmd
  split_ifs <;> simp_all [cmdOpcodes, eq_comm]

/-- A SEQ word is illegal exactly when its CODE is 0x00 or 0x06 to 0xFF (R80). -/
theorem decodeSeq_eq_illegal_iff {code : Byte} {why : IllegalReason} :
    decodeSeq code = .illegal why ↔ (code = 0x00 ∨ 0x06 ≤ code.toNat) ∧ why = .unusedSeqCode code := by
  unfold decodeSeq
  split_ifs with h1 h2 h3 h4 h5
  · simp [h1]
  · simp [h2]
  · simp [h3]
  · simp [h4]
  · simp [h5]
  · have hcode : code = 0x00 ∨ 0x06 ≤ code.toNat := by bv_omega
    rw [Decoded.illegal.injEq, eq_comm, and_iff_right hcode]

/-- Settles O3: CLASS is CMD's, SEQ's or reserved, and within a class the illegal codes are those no request has. -/
theorem illegalWordsAreTheThreeGroups : Obligations.IllegalWordsAreTheThreeGroups := by
  refine fun w => ⟨decode_of_reserved, fun hw hcode => ?_, fun hw hcode => ?_, fun why h => ?_⟩
  · exact (decode_of_cmd hw).trans (decodeCmd_eq_illegal_iff.2 ⟨hcode, rfl⟩)
  · exact (decode_of_seq hw).trans (decodeSeq_eq_illegal_iff.2 ⟨hcode, rfl⟩)
  · rcases class_cases (reqClass w) with hw | hw | hw
    · exact .inr (.inl ⟨hw, (decodeCmd_eq_illegal_iff.1 (decode_of_cmd hw ▸ h)).1⟩)
    · exact .inr (.inr ⟨hw, (decodeSeq_eq_illegal_iff.1 (decode_of_seq hw ▸ h)).1⟩)
    · exact .inl hw

/-- Settles O4: the four words are those of their requests, and the other three are one from each illegal group. -/
theorem tableWordsDecode : Obligations.TableWordsDecode :=
  ⟨decodeTableWord_encode .cmdReadUniqueId, decodeTableWord_encode .cmdReadSr1, decodeTableWord_encode .seqIsBusy,
    decodeTableWord_encode .seqPostResetTest, decodeTableWord_illegal (w := 0x0006) (why := .unusedCmdCode 0x06) (by decide),
    decodeTableWord_illegal (w := 0x0100) (why := .unusedSeqCode 0x00) (by decide),
    decodeTableWord_illegal (w := 0x0200) (decode_of_reserved (by decide))⟩

end Sys2Proof
end

section
/-! SUPPORT. What the micro-ops of a transaction do for each answer, the sleep, and the micro-op that commits. -/

namespace Sys2Proof.Machine

/-! ### Chip-select -/

/-- `CSL` has a step exactly where chip-select is HIGH (R102). -/
theorem microStep_csl_high {cr : State → State} {s : State} (h : s.cs = .high) :
    microStep cr .csl s = some ({ s with cs := .low }.emit [.csl]).advance := if_pos h

/-- `CSL` has no step where its precondition fails (R102). -/
theorem microStep_csl_not_high {cr : State → State} {s : State} (h : s.cs ≠ .high) : microStep cr .csl s = none := if_neg h

/-- A transaction that reads has its read phase directly between the write phase and `CSH` (R101, R104). -/
theorem txn_of_read {W : List Byte} {n slot : Nat} (h : 1 ≤ n) : txn W n slot = [.csl, .wr W, .rd n slot, .csh] := by
  rw [txn, if_pos (show n > 0 from h)]
  rfl

/-! ### The write phase -/

/-- A write phase answered OK emits all its bytes (R103). -/
theorem microStep_wr_ok {cr : State → State} {W : List Byte} {s : State} {rest : List TransportAnswer}
    (h : s.transport = .writeOk :: rest) :
    microStep cr (.wr W) s = some ({ s with transport := rest }.emit (W.map .tx)).advance := by
  simp [microStep, writePhase, h]

/-- A write phase that faults after `k` of its bytes emits those and aborts (R103, R176). -/
theorem microStep_wr_fault {cr : State → State} {W : List Byte} {s : State} {k : Nat} {rest : List TransportAnswer}
    (hk : k ≤ W.length) (h : s.transport = .writeFault k :: rest) :
    microStep cr (.wr W) s = some (abort .write ({ s with transport := rest }.emit ((W.take k).map .tx))) := by
  simp [microStep, writePhase, h, hk]

/-- A write phase without an answer has no step (R103, R110). -/
theorem microStep_wr_unanswered {cr : State → State} {W : List Byte} {s : State} (h : s.transport = []) :
    microStep cr (.wr W) s = none := by
  simp [microStep, writePhase, h]

/-- Settles O15: the three outcomes of the write phase, the abort written out. -/
theorem writePhaseOutcomes : Obligations.WritePhaseOutcomes := by
  refine fun cr W s => ⟨fun rest h => microStep_wr_ok h, fun k rest hk h => ?_, microStep_wr_unanswered⟩
  exact microStep_wr_fault hk h

/-! ### The read phase -/

/-- A read phase answered with its `n` bytes emits and stages them (R104, R53). -/
theorem microStep_rd_ok {cr : State → State} {n slot : Nat} {s : State} {d : List Byte} {rest : List TransportAnswer}
    (hd : d.length = n) (h : s.transport = .readOk d :: rest) :
    microStep cr (.rd n slot) s =
      some ({ s with transport := rest, stg := stageBytes s.stg slot d,
                     stgSr1v := s.stgSr1v || slot == 12 }.emit (d.map .rx)).advance := by
  simp [microStep, readPhase, h, hd]

/-- A read phase that faults stages nothing and aborts (R104, R176). -/
theorem microStep_rd_fault {cr : State → State} {n slot : Nat} {s : State} {rest : List TransportAnswer}
    (h : s.transport = .readFault :: rest) :
    microStep cr (.rd n slot) s = some (abort .read { s with transport := rest }) := by
  simp [microStep, readPhase, h]

/-- A read phase without an answer has no step (R104, R110). -/
theorem microStep_rd_unanswered {cr : State → State} {n slot : Nat} {s : State} (h : s.transport = []) :
    microStep cr (.rd n slot) s = none := by
  simp [microStep, readPhase, h]

/-- Settles O16: the three outcomes of the read phase, slot by slot where it stages, and its place in the transaction. -/
theorem readPhaseOutcomes : Obligations.ReadPhaseOutcomes := by
  refine ⟨fun cr n slot s _ => ⟨fun d rest hd _ h => ?_, fun rest h => microStep_rd_fault h, microStep_rd_unanswered⟩,
    fun W n slot hn => txn_of_read hn⟩
  have hsr1 : (s.stgSr1v || slot == 12) = if slot = 12 then true else s.stgSr1v := by
    by_cases h12 : slot = 12 <;> simp [h12]
  refine ⟨_, microStep_rd_ok hd h, ?_, fun j hj => ?_⟩
  · rw [hsr1]
    rfl
  · rw [← hd]
    exact stageBytes_getElem s.stg slot d j hj

/-! ### INIT's configure and the sleep -/

/-- INIT's `configure` without an answer has no step (R110, R140). -/
theorem microStep_cfg_unanswered {cr : State → State} {hz : Hz} {s : State} (h : s.transport = []) :
    microStep cr (.cfg hz) s = none := by
  simp [microStep, h]

/-- A sleep whose Timer reports enough time completes (R111). -/
theorem microStep_dly_elapsed {cr : State → State} {us u : Nat} {s : State} {rest : List Nat} (hu : us ≤ u)
    (h : s.timer = u :: rest) : microStep cr (.dly us) s = some ({ s with timer := rest }.emit [.dly us]).advance := by
  simp [microStep, h, hu]

/-- A sleep whose Timer reports too little has no step: an early report is no answer (R111). -/
theorem microStep_dly_early {cr : State → State} {us u : Nat} {s : State} {rest : List Nat} (hu : u < us)
    (h : s.timer = u :: rest) : microStep cr (.dly us) s = none := by
  simp [microStep, h, hu]

/-- A sleep the Timer has not answered has no step (R110, R111). -/
theorem microStep_dly_unanswered {cr : State → State} {us : Nat} {s : State} (h : s.timer = []) :
    microStep cr (.dly us) s = none := by
  simp [microStep, h]

/-! ### COMMIT -/

/-- Settles O20: `COMMIT` writes the request's results and the success record, and stands at the end of every micro-program alone. -/
theorem commitCompletesTheRequest : Obligations.CommitCompletesTheRequest := by
  refine ⟨fun i s => ?_, microProgram_commit, fun i op s t hop h => ?_⟩
  · obtain ⟨-, -, -, -, fcs, fhold, fwp, -, fstg, fsr1v, ftrace, -, -, -, fbusy, -⟩ := commitResults_frame i s
    have hbusy : (finishCommit (commitResults i s)).busyFlag = if s.stgSr1v then s.stg[12].getLsbD 0 else s.busyFlag := by
      rw [finishCommit_busyFlag, fsr1v, fbusy, State.stgAt_lt _ 12 (by decide)]
      simp only [fstg]
      rfl
    exact ⟨_, rfl, hbusy, rfl, rfl, rfl, rfl, rfl, rfl, rfl, rfl, rfl, rfl, rfl, ftrace, fcs, fhold, fwp⟩
  · obtain ⟨-, -, -, hresults, -⟩ := microStep_frame h
    exact hresults hop

end Sys2Proof.Machine
end

section
/-! SUPPORT. Where the Block has no step it holds; the framing of a request by chip-select; sleeps along a run; a step of the machine
as a run of agent steps. -/

namespace Sys2Proof.Machine

/-! ### Holding -/

/-- An ACTIVE block without a Block step holds: resuming its request changes nothing (R110). -/
theorem step_of_blockStep_none {s : State} (ha : s.seqState = .active) (h : blockStep s = none) : step s = .next s := by
  rw [step_active ha, resume]
  cases hd : decode s.curReq with
  | illegal why => rfl
  | request i =>
    dsimp only
    by_cases hk : s.upc.toNat < (microProgram i).length
    · have hat : At i s.upc.toNat s := ⟨ha, hd, rfl, hk⟩
      rw [List.drop_eq_getElem_cons hk, runOps_none (hat.blockStep.symm.trans h)]
    · rw [List.drop_eq_nil_of_le (not_lt.1 hk)]
      rfl

/-- A block that stands at a micro-op without a step has no Block step, and holds (R110). -/
theorem holds_of_microStep_none {s : State} {i : Instr} {op : MicroOp} (ha : s.seqState = .active)
    (hd : decode s.curReq = .request i) (ho : (microProgram i)[s.upc.toNat]? = some op)
    (h : microStep (commitResults i) op s = none) : blockStep s = none ∧ step s = .next s := by
  have hb : blockStep s = none := (blockStep_at ha hd ho).trans h
  exact ⟨hb, step_of_blockStep_none ha hb⟩

/-- Settles O12: each of the four micro-ops has no step without its answer, so the block holds there. -/
theorem unansweredPhaseHoldsTheBlock : Obligations.UnansweredPhaseHoldsTheBlock := by
  refine fun s i ha hd => ⟨fun ht => ⟨fun W ho => ?_, fun n k ho => ?_, fun hz ho => ?_⟩, fun ht us ho => ?_⟩
  · exact holds_of_microStep_none ha hd ho (microStep_wr_unanswered ht)
  · exact holds_of_microStep_none ha hd ho (microStep_rd_unanswered ht)
  · exact holds_of_microStep_none ha hd ho (microStep_cfg_unanswered ht)
  · exact holds_of_microStep_none ha hd ho (microStep_dly_unanswered ht)

/-- Every request other than INIT begins with the `CSL` and the write phase of its first transaction (R101). -/
theorem microProgram_opens {i : Instr} (h : i ≠ .seqInit) : ∃ W ops, microProgram i = .csl :: .wr W :: ops := by
  cases i with
  | seqInit => exact absurd rfl h
  | _ => exact ⟨_, _, rfl⟩

/-- A request accepted while no Transport answer is there runs its `CSL` and stands at its first write phase (R110). -/
theorem exec_unanswered {i : Instr} {s : State} (hi : i ≠ .seqInit) (h : Ready s) (ht : s.transport = []) :
    ∃ t, exec i s = .next t ∧ microStep (commitResults i) .csl (accept (encode i) s) = some t ∧ At i 1 t ∧
      blockStep t = none := by
  obtain ⟨hidle, hready, hcs⟩ := h
  obtain ⟨W, ops, hp⟩ := microProgram_opens hi
  obtain ⟨t, hcsl, along⟩ := along_csl (cr := commitResults i) (u := accept (encode i) s) rfl hcs
  have hunanswered : microStep (commitResults i) (.wr W) t = none := microStep_wr_unanswered (along.transport.trans ht)
  have hfirst : (microProgram i)[0]'(accept_at i s).lt = .csl := by simp [hp]
  have hat : At i 1 t := ((accept_at i s).next (hfirst ▸ hcsl) along.act).1
  refine ⟨t, ?_, hcsl, hat, ?_⟩
  · rw [exec_accepted hidle (.inl hready), hp, runOps_active hcsl along.act, runOps_none hunanswered]
  · rw [hat.blockStep]
    simpa [hp] using hunanswered

/-- Settles O13: the request stops after its `CSL`, and holds at its unanswered write phase. -/
theorem hungRequestKeepsChipSelectLow : Obligations.HungRequestKeepsChipSelectLow := by
  intro i s hi h ht
  obtain ⟨t, hexec, hcsl, hat, hb⟩ := exec_unanswered hi h ht
  obtain ⟨-, -, hcs⟩ := h
  rw [microStep_csl_high (s := accept (encode i) s) hcs] at hcsl
  obtain rfl := Option.some.inj hcsl
  refine ⟨_, hexec, rfl, rfl, rfl, rfl, rfl, ⟨rfl, rfl, rfl, rfl, rfl, rfl, rfl⟩, fun t' ht' => ?_⟩
  exact (Host.Outcome.next.inj ((step_of_blockStep_none hat.act hb).symm.trans ht')).symm

/-! ### Chip-select along a request -/

/-- A block that has a next micro-op stands at it. -/
theorem at_of_getElem? {i : Instr} {op : MicroOp} {s : State} (ha : s.seqState = .active) (hd : decode s.curReq = .request i)
    (ho : (microProgram i)[s.upc.toNat]? = some op) :
    ∃ hat : At i s.upc.toNat s, (microProgram i)[s.upc.toNat]'hat.lt = op := by
  obtain ⟨hlt, hop⟩ := List.getElem?_eq_some_iff.1 ho
  exact ⟨⟨ha, hd, rfl, hlt⟩, hop⟩

/-- Settles O14: `CSL` stands outside every window and not in INIT, and there the invariant has chip-select HIGH. -/
theorem chipSelectLowOpensTheWindow : Obligations.ChipSelectLowOpensTheWindow := by
  refine ⟨fun cr s => microStep_csl_high, fun cr s => microStep_csl_not_high, fun W n slot => rfl,
    fun s i h ha hd ho => ?_⟩
  obtain ⟨hat, hop⟩ := at_of_getElem? ha hd ho
  have hp := hop ▸ hat.placed
  have hclosed : programPhase s.done = .closed := placed_closed hp (by simp) (by simp) (by simp)
  rw [(h.stateInv.readyPins (h.stateInv.ready_of_running hat (placed_csl hp))).1, if_pos hclosed]

/-- Only `COMMIT` uses the request's `commit_results` (R108). -/
theorem microStep_congr_commitResults {cr cr' : State → State} {op : MicroOp} {s : State} (h : op ≠ .commit) :
    microStep cr op s = microStep cr' op s := by
  cases op with
  | commit => exact absurd rfl h
  | _ => rfl

/-- A micro-op of a request keeps chip-select LOW exactly inside a window, and HIGH once the request has ended (R102, R105, R176). -/
theorem At.keeps_cs {i : Instr} {k : Nat} {s t : State} (hat : At i k s) (hcs : s.cs = (programPhase s.done).csLevel)
    (h : microStep (commitResults i) ((microProgram i)[k]'hat.lt) s = some t) : t.cs = (programPhase t.done).csLevel := by
  by_cases ha : t.seqState = .active
  · obtain ⟨-, -, hdone⟩ := hat.next h ha
    rw [hdone]
    exact microStep_cs h hat.placed ha hcs
  have hi := idle_of_not_active ha
  rw [done_idle hi]
  by_cases hc : (microProgram i)[k]'hat.lt = .commit
  · have hclosed : programPhase s.done = .closed := placed_closed (hc ▸ hat.placed) (by simp) (by simp) (by simp)
    obtain ⟨-, -, -, -, fcs, -⟩ := commitResults_frame i s
    obtain rfl := commit_of_step (hc ▸ h)
    rw [finishCommit_cs, fcs, hcs, hclosed]
    rfl
  · obtain ⟨-, ph, sent, rest, rfl⟩ := microStep_aborts h hc hat.act hi
    rfl

/-- Settles O17: `CSH` raises chip-select, an abort ends with the same deassertion, and chip-select follows the windows of a request to
its end. -/
theorem chipSelectHighClosesTheWindow : Obligations.ChipSelectHighClosesTheWindow := by
  refine ⟨fun cr s => rfl, fun cr op s t hop ha h hi => ?_, fun i s t hr h hi => ?_⟩
  · rw [microStep_congr_commitResults (cr' := commitResults .seqInit) hop] at h
    obtain ⟨-, ph, sent, rest, rfl⟩ := microStep_aborts h hop ha hi
    exact ⟨rfl, sent.map .tx ++ [.fault ph], by simp⟩
  · obtain ⟨hidle, hready, hcs⟩ := hr
    have hat := accept_at i s
    rw [exec_accepted hidle (.inl hready)] at h
    obtain rfl := Host.Outcome.next.inj h
    have hrun := runOps_at (P := fun u => u.cs = (programPhase u.done).csLevel) (fun _ _ _ hat hcs hm => hat.keeps_cs hcs hm)
      0 _ hat (by rw [hat.done]; exact hcs)
    rwa [List.drop_zero, done_idle hi] at hrun

/-- Settles O58: the invariant has every reachable trace framed, and while IDLE no micro-op is done. -/
theorem everyReachableTraceIsFramed : Obligations.EveryReachableTraceIsFramed :=
  fun s h => ⟨_, h.stateInv.framed, fun hi => by rw [done_idle hi]; rfl⟩

/-! ### Sleeps along a run -/

/-- A sleeping block is ACTIVE. -/
theorem active_of_sleep {s : State} {us : Nat} (h : s.sleep = some us) : s.seqState = .active := by
  obtain ⟨i, hn⟩ := sleep_some h
  exact (nextOp_some hn).1

/-- While the Timer has not reported, a move leaves the block asleep and emits nothing: only the environment has one (R111, R171). -/
theorem Move.sleeps_on {s t : State} {us : Nat} (m : Move s t) (hs : s.sleep = some us) (hr : s.timerReports us = false) :
    t.sleep = some us ∧ t.trace = s.trace := by
  cases m with
  | block hb => simp [(blockStep_sleep hs).1 hr] at hb
  | host w hw => simp [submit_active (active_of_sleep hs)] at hw
  | environment ts us' _ => exact ⟨hs, rfl⟩

/-- Once the Timer has reported, the move is the Block's, which completes the sleep (R111). -/
theorem Move.wakes {s t : State} {us : Nat} (m : Move s t) (hs : s.sleep = some us) (hr : s.timerReports us = true) :
    t.trace = s.trace ++ [.dly us] ∧ t.upc = s.upc + 1 := by
  obtain ⟨u, hu, hwoken⟩ := (blockStep_sleep hs).2 hr
  cases m with
  | block hb =>
    obtain rfl : u = t := Option.some.inj (hu.symm.trans hb)
    exact hwoken
  | host w hw => simp [submit_active (active_of_sleep hs)] at hw
  | environment ts us' hb => simp [hb] at hu

/-- Along `σ` the sleep `us` of the block at `k` holds, emitting nothing, up to some `j`, where its DLY completes (R111). -/
def SleepCompletes (σ : Nat → State) (us k : Nat) : Prop :=
  ∃ j, k ≤ j ∧ (∀ m, k ≤ m → m ≤ j → (σ m).sleep = some us ∧ (σ m).trace = (σ k).trace) ∧
    (σ (j + 1)).trace = (σ k).trace ++ [.dly us] ∧ (σ (j + 1)).upc = (σ j).upc + 1

/-- A sleep whose report is there completes in this move. -/
theorem sleepCompletes_of_reported {σ : Nat → State} {us k : Nat} (hm : Move (σ k) (σ (k + 1))) (hs : (σ k).sleep = some us)
    (hr : (σ k).timerReports us = true) : SleepCompletes σ us k := by
  refine ⟨k, le_rfl, fun m hkm hmk => ?_, hm.wakes hs hr⟩
  obtain rfl : m = k := le_antisymm hmk hkm
  exact ⟨hs, rfl⟩

/-- A sleep that goes on in this move and completes from there completes. -/
theorem SleepCompletes.of_succ {σ : Nat → State} {us k : Nat} (h : SleepCompletes σ us (k + 1)) (hs : (σ k).sleep = some us)
    (htrace : (σ (k + 1)).trace = (σ k).trace) : SleepCompletes σ us k := by
  obtain ⟨j, hkj, hbefore, hdone, hupc⟩ := h
  refine ⟨j, by omega, fun m hkm hmj => ?_, htrace ▸ hdone, hupc⟩
  rcases hkm.eq_or_lt with rfl | hlt
  · exact ⟨hs, rfl⟩
  · exact htrace ▸ hbefore m hlt hmj

/-- A sleep that is over or reported `n` moves later completes: until its report it goes on, and only the report ends it. -/
theorem sleepCompletes {σ : Nat → State} (hm : ∀ k, Move (σ k) (σ (k + 1))) {us : Nat} (n k : Nat) (hs : (σ k).sleep = some us)
    (hend : (σ (k + n)).sleep ≠ some us ∨ (σ (k + n)).timerReports us = true) : SleepCompletes σ us k := by
  induction n generalizing k with
  | zero => exact sleepCompletes_of_reported (hm k) hs (hend.resolve_left (not_not.2 hs))
  | succ n ih =>
    cases hr : (σ k).timerReports us with
    | true => exact sleepCompletes_of_reported (hm k) hs hr
    | false =>
      obtain ⟨hs', htrace⟩ := (hm k).sleeps_on hs hr
      exact (ih (k + 1) hs' (by rwa [Nat.add_right_comm, Nat.add_assoc])).of_succ hs htrace

/-- Settles O18: a sleep needs a report of enough time, a fair Timer gives one, and only a Reset sleeps. -/
theorem sleepLastsAtLeastTheRequestedTime : Obligations.SleepLastsAtLeastTheRequestedTime := by
  refine ⟨fun cr us s => ⟨fun t rest hu h => microStep_dly_elapsed hu h, fun t rest hu h => microStep_dly_early hu h⟩,
    fun σ hrun k us hs => ?_, fun i us => dly_mem_microProgram⟩
  obtain ⟨j, hkj, hend⟩ := hrun.timerFair k us hs
  obtain ⟨n, rfl⟩ := Nat.exists_eq_add_of_le hkj
  exact sleepCompletes hrun.moves n k hs hend

/-! ### A step as a run of agent steps -/

/-- One agent step and then `n` more. -/
theorem agentSteps_succ {n : Nat} {s t : State} (h : agentStep s = some t) : agentSteps (n + 1) s = agentSteps n t := by
  rw [agentSteps, h]
  rfl

/-- The run of a request from where it stands is a run of Block steps, one for each micro-op left at most, and goes on to the request's
end or to a micro-op without a step (R100, R110). -/
theorem At.runOps_is_agentSteps {i : Instr} {k : Nat} {s : State} (hat : At i k s) :
    (∃ n, n ≤ (microProgram i).length - k ∧
      agentSteps n s = some (runOps (commitResults i) ((microProgram i).drop k) s)) ∧
    ((runOps (commitResults i) ((microProgram i).drop k) s).seqState = .idle ∨
      Machine.blockStep (runOps (commitResults i) ((microProgram i).drop k) s) = none) := by
  generalize hm : (microProgram i).length - k = m
  induction m generalizing k s with
  | zero => have := hat.lt; omega
  | succ m ih =>
    have hagent := (agentStep_active hat.act).trans hat.blockStep
    rw [List.drop_eq_getElem_cons hat.lt]
    cases hs : microStep (commitResults i) ((microProgram i)[k]'hat.lt) s with
    | none =>
      rw [runOps_none hs]
      exact ⟨⟨0, by omega, rfl⟩, .inr (hat.blockStep.trans hs)⟩
    | some t =>
      by_cases ha : t.seqState = .active
      · rw [runOps_active hs ha]
        obtain ⟨⟨n, hn, hrun⟩, hend⟩ := ih (hat.next hs ha).1 (by omega)
        exact ⟨⟨n + 1, by omega, (agentSteps_succ (hagent.trans hs)).trans hrun⟩, hend⟩
      · have hi := idle_of_not_active ha
        rw [runOps_idle hs hi]
        exact ⟨⟨1, by omega, agentSteps_succ (hagent.trans hs)⟩, .inl hi⟩

/-- A resumption is a run of at most 25 agent steps. -/
theorem resume_is_agentSteps {s : State} (ha : s.seqState = .active) :
    (∃ n, n ≤ 25 ∧ agentSteps n s = some (resume s)) ∧ ((resume s).seqState = .idle ∨ blockStep (resume s) = none) := by
  by_cases hb : blockStep s = none
  · have hr : resume s = s := Host.Outcome.next.inj ((step_active ha).symm.trans (step_of_blockStep_none ha hb))
    rw [hr]
    exact ⟨⟨0, by omega, rfl⟩, .inr hb⟩
  · obtain ⟨t, ht⟩ := Option.ne_none_iff_exists'.1 hb
    obtain ⟨i, op, hn, -⟩ := blockStep_some ht
    obtain ⟨-, hd, ho⟩ := nextOp_some hn
    obtain ⟨hat, -⟩ := at_of_getElem? ha hd ho
    have hr : resume s = runOps (commitResults i) ((microProgram i).drop s.upc.toNat) s := by rw [resume, hd]
    obtain ⟨⟨n, hle, hrun⟩, hend⟩ := hat.runOps_is_agentSteps
    have := microProgram_length i
    rw [hr]
    exact ⟨⟨n, by omega, hrun⟩, hend⟩

/-- A request submitted while IDLE is its submission and then a run of at most 25 Block steps (R171, R100). -/
theorem exec_is_agentSteps {i : Instr} {w : ReqWord} {rest : List ReqWord} {s t : State} (hi : s.seqState = .idle)
    (hs : s.submissions = w :: rest) (hd : decode w = .request i) (h : exec i { s with submissions := rest } = .next t) :
    (∃ n, n ≤ 26 ∧ agentSteps n s = some t) ∧ (t.seqState = .idle ∨ blockStep t = none) := by
  obtain rfl := eq_encode_of_decode hd
  have hsubmit : agentStep s = some (present (encode i) { s with submissions := rest }) :=
    (agentStep_idle_cons hi hs).trans (submit_request hi hd)
  rcases exec_cases h with ⟨ha, -⟩ | ⟨-, hu, hne, rfl⟩ | ⟨-, hr, rfl⟩
  · simp [hi] at ha
  · rw [present_rejects hu (mt encode_eq_initWord.1 hne)] at hsubmit
    exact ⟨⟨1, by omega, agentSteps_succ hsubmit⟩, .inl hi⟩
  · rw [present_accepts (hr.imp_right encode_eq_initWord.2)] at hsubmit
    obtain ⟨⟨n, hn, hrun⟩, hend⟩ := (accept_at i { s with submissions := rest }).runOps_is_agentSteps
    have := microProgram_length i
    exact ⟨⟨n + 1, by omega, (agentSteps_succ hsubmit).trans hrun⟩, hend⟩

/-- Settles O59: a step is a resumption, a wait, a rejection or a submitted request, each a run of agent steps. -/
theorem stepIsARunOfAgentSteps : Obligations.StepIsARunOfAgentSteps := by
  intro s t h
  rcases step_cases h with ⟨ha, rfl⟩ | ⟨hi, -, rfl⟩ | ⟨hi, w, rest, hs, ⟨why, hd, rfl⟩ | ⟨i, hd, he⟩⟩
  · obtain ⟨⟨n, hn, hrun⟩, hend⟩ := resume_is_agentSteps ha
    exact ⟨⟨n, by omega, hrun⟩, hend⟩
  · exact ⟨⟨0, by omega, rfl⟩, .inl hi⟩
  · exact ⟨⟨1, by omega, agentSteps_succ ((agentStep_idle_cons hi hs).trans (submit_illegal hi hd))⟩, .inl hi⟩
  · exact exec_is_agentSteps hi hs hd he

end Sys2Proof.Machine
end

section
/-! SUPPORT. What an answered transaction does to the whole state, what `COMMIT` makes of a request that has gone along to it, and
the completion of the CMD requests. -/

namespace Sys2Proof.Machine

/-! ### Answered transactions -/

/-- The row's transaction stages an SR1 byte (R29). -/
def Descriptor.readsSr1 (d : Descriptor) : Bool := d.readLen > 0 && d.slot.getD 0 == 12

/-- `u` after the transaction of the row `d`, answered with the bytes `b` and leaving the answers `more` (R101, R103, R104). -/
def Descriptor.transact (d : Descriptor) (b : List Byte) (more : List TransportAnswer) (u : State) : State :=
  { u with
    cs := .high, upc := u.upc + BitVec.ofNat 5 d.txn.length, txnIdx := u.txnIdx + 1, trace := u.trace ++ d.events b
    stg := stageBytes u.stg (d.slot.getD 0) b, stgSr1v := u.stgSr1v || d.readsSr1, transport := more }

/-- An answered transaction goes along (R76, R101). -/
theorem along_transact (row : Descriptor) (b : List Byte) (more : List TransportAnswer) {u : State} (ha : u.seqState = .active) :
    Along u (row.transact b more u) .high (row.events b) 1 more :=
  ⟨ha, rfl, rfl, rfl, rfl, ⟨rfl, rfl, rfl, rfl, rfl, rfl, rfl⟩, ⟨rfl, rfl, rfl, rfl, rfl, rfl⟩, rfl, rfl⟩

/-- The micro-ops of an answered transaction lead to the state after it: with a read phase if its row reads, without one if not. -/
theorem runOps_transact {cr : State → State} {row : Descriptor} {b : List Byte} {u : State} {more : List TransportAnswer}
    {ops : List MicroOp} (ha : u.seqState = .active) (hc : u.cs = .high) (hb : b.length = row.readLen)
    (ht : u.transport = row.answers b ++ more) :
    runOps cr (row.txn ++ ops) u = runOps cr ops (row.transact b more u) := by
  by_cases hn : 0 < row.readLen
  · have hanswers : u.transport = .writeOk :: .readOk b :: more := by simpa [Descriptor.answers, hn] using ht
    simp [Descriptor.txn, txn, Descriptor.transact, Descriptor.readsSr1, Descriptor.events, runOps, microStep, writePhase,
      readPhase, State.emit, State.advance, BitVec.add_assoc, hn, hb, ha, hc, hanswers]
  · have hanswers : u.transport = .writeOk :: more := by simpa [Descriptor.answers, hn] using ht
    obtain rfl : b = [] := List.length_eq_zero_iff.1 (by omega)
    simp [Descriptor.txn, txn, Descriptor.transact, Descriptor.readsSr1, Descriptor.events, runOps, microStep, writePhase,
      stageBytes, State.emit, State.advance, BitVec.add_assoc, hn, ha, hc, hanswers]

/-- Bytes staged inside the buffer are read back in order (R53). -/
theorem staged_of_stageBytes {u : State} {stg : Vector Byte 15} {slot : Nat} {b : List Byte} (h : u.stg = stageBytes stg slot b)
    (hfits : slot + b.length ≤ 15) : u.staged slot b.length = b := by
  refine List.ext_getElem (by simp [State.staged]) fun k _ hk => ?_
  have hj : slot + k < 15 := by omega
  have hin : slot ≤ slot + k ∧ slot + k < slot + b.length := by omega
  simp only [State.staged, List.getElem_map, List.getElem_range, State.stgAt_lt u _ hj, h, stageBytes_getElem _ _ _ _ hj,
    if_pos hin]
  simp [hk]

/-- The first staged byte is the slot's. -/
theorem staged_getD_zero (u : State) (slot : Nat) {n : Nat} (hn : 0 < n) : (u.staged slot n).getD 0 0x00 = u.stgAt slot := by
  simp [State.staged, hn]

/-- A sleep after which the Timer still has `later` goes along a request whose Timer had `later` from the start (R111). -/
theorem Along.slept {u v : State} {c : Level} {es : List Event} {n : BitVec 3} {more : List TransportAnswer}
    (k : Along u v c es n more) (us : Nat) (later : List Nat) :
    Along { u with timer := later } ({ v with timer := later }.emit [.dly us]).advance c (es ++ [.dly us]) n more :=
  { act := k.act, cur := k.cur, cs := k.cs, trace := by simp [k.trace], txnIdx := k.txnIdx, results := k.results,
    setup := k.setup, transport := k.transport, timer := rfl }

/-! ### What `COMMIT` leaves -/

/-- The response register, byte by byte (R31). -/
theorem setResp_getElem (b : List Byte) (s : State) (k : Nat) (hk : k < 8) : (s.setResp b).resp[k] = b.getD k 0x00 := by
  simp only [State.setResp_resp]
  match k, hk with
  | 0, _ | 1, _ | 2, _ | 3, _ | 4, _ | 5, _ | 6, _ | 7, _ => rfl

/-- The response register holds the response, then 0x00 (R31). -/
theorem setResp_toList (b : List Byte) (s : State) (h : b.length ≤ 8) :
    (s.setResp b).resp.toList = b ++ List.replicate (8 - b.length) 0x00 := by
  refine List.ext_getElem (by simp; omega) fun k h8 _ => ?_
  rw [Vector.getElem_toList, setResp_getElem b s k (by simpa using h8), List.getElem_append]
  by_cases hk : k < b.length <;> simp [hk]

/-- `COMMIT` of a request other than INIT that went along from its acceptance with chip-select HIGH: the success record with its
response, and the setup and the unused answers as they were (R108). -/
theorem Along.commits {i : Instr} {w : ReqWord} {s v : State} {es : List Event} {n : BitVec 3} {more : List TransportAnswer}
    {b : List Byte} (k : Along (accept w s) v .high es n more) (hi : i ≠ .seqInit) (hb : b.length ≤ 8)
    (hresp : (commitResults i v).resp = (v.setResp b).resp) (hlen : (commitResults i v).respLen = (v.setResp b).respLen) :
    Succeeded w es b s (finishCommit (commitResults i v)) ∧ SameSetup s (finishCommit (commitResults i v)) ∧
      (finishCommit (commitResults i v)).transport = more ∧ (finishCommit (commitResults i v)).timer = s.timer := by
  obtain ⟨-, fcur, -, -, fcs, fhold, fwp, fbus, -, -, ftrace, fsub, ftransport, ftimer, -⟩ := commitResults_frame i v
  obtain ⟨-, -, fothers, -⟩ := commitResults_writers i v
  obtain ⟨fclk, fcfg⟩ := fothers hi
  obtain ⟨hcfg, hhold, hwp, hbus, hclk, hsub⟩ := k.setup
  refine ⟨⟨rfl, fcur.trans k.cur, fcs.trans k.cs, ftrace.trans k.trace, ?_, ?_, rfl, rfl, rfl, rfl⟩,
    ⟨fcfg.trans hcfg, fhold.trans hhold, fwp.trans hwp, fbus.trans hbus, fclk.trans hclk, fsub.trans hsub⟩,
    ftransport.trans k.transport, ftimer.trans k.timer⟩
  · rw [finishCommit_resp, hresp, setResp_toList b v hb]
  · rw [finishCommit_respLen, hlen, (setResp_padded b v hb).1]

/-! ### The CMD requests complete -/

/-- `t` is `s` after the request `w` completed successfully, having written no result but its response and BUSY_FLAG. -/
def Completed (w : ReqWord) (events : List Event) (response : List Byte) (busy : Bool) (more : List TransportAnswer)
    (s t : State) : Prop :=
  Succeeded w events response s t ∧ t.busyFlag = busy ∧ t.devInfo = s.devInfo ∧ t.prtPass = s.prtPass ∧ SameSetup s t ∧
  t.transport = more ∧ t.timer = s.timer

/-- The request `i` is the command of the row `row` (R120): its transaction, then `tail`, with the row's bytes as response. -/
structure CommandOf (i : Instr) (row : Descriptor) (tail : List MicroOp) : Prop where
  cmd : isCmd i = true
  program : microProgram i = row.txn ++ tail
  response : commitResults i = commitCmd row
  fits : row.wellFormed = true

/-- No SEQ request is a CMD request (R71). -/
theorem ne_seq_of_isCmd {i : Instr} (h : isCmd i = true) :
    i ≠ .seqInit ∧ i ≠ .seqResetSeq ∧ i ≠ .seqLoadDeviceInfo ∧ i ≠ .seqIsBusy ∧ i ≠ .seqPostResetTest := by
  refine ⟨?_, ?_, ?_, ?_, ?_⟩ <;> rintro rfl <;> cases h

/-- The bytes a well-formed row reads fit the response and the staging buffer (R6, R29). -/
theorem Descriptor.read_fits {d : Descriptor} (h : d.wellFormed = true) : d.readLen ≤ 8 ∧ d.slot.getD 0 + d.readLen ≤ 15 := by
  simp only [Descriptor.wellFormed, Bool.and_eq_true, decide_eq_true_eq] at h
  obtain ⟨⟨⟨-, hresp⟩, -⟩, hstg⟩ := h
  exact ⟨hresp, hstg⟩

/-- BUSY_FLAG after a command: the busy bit of the byte read if that is SR1, else as it was (R120, R126, R129). -/
def Descriptor.busyAfter (d : Descriptor) (b : List Byte) (s : State) : Bool :=
  if d.readsSr1 then busyBit (b.getD 0 0x00) else s.busyFlag

section Command
variable {i : Instr} {row : Descriptor} {tail : List MicroOp} {b : List Byte} {more : List TransportAnswer} {s : State}

/-- A command submitted to a block at rest, its phases answered, runs its transaction and is left with `tail`. -/
theorem CommandOf.exec (c : CommandOf i row tail) (h : Ready s) (hb : b.length = row.readLen)
    (ht : s.transport = row.answers b ++ more) :
    Machine.exec i s = .next (runOps (commitResults i) tail (row.transact b more (accept (encode i) s))) := by
  obtain ⟨hidle, hready, hcs⟩ := h
  rw [exec_accepted hidle (.inl hready), c.program, runOps_transact (u := accept (encode i) s) rfl hcs hb ht]

/-- The `COMMIT` of a command writes the bytes its transaction staged as response, and BUSY_FLAG from an SR1 byte (R120, R108). -/
theorem CommandOf.commits {v : State} {es : List Event} {n : BitVec 3} (c : CommandOf i row tail)
    (k : Along (accept (encode i) s) v .high es n more) (hb : b.length = row.readLen)
    (hstg : v.stg = stageBytes (accept (encode i) s).stg (row.slot.getD 0) b) (hsr1 : v.stgSr1v = row.readsSr1) :
    Completed (encode i) es b (row.busyAfter b s) more s (finishCommit (commitResults i v)) := by
  obtain ⟨hinit, -, hload, -, hprt⟩ := ne_seq_of_isCmd c.cmd
  obtain ⟨hresp, hfits⟩ := Descriptor.read_fits c.fits
  have hstaged : v.staged (row.slot.getD 0) row.readLen = b := by
    rw [← hb] at hfits ⊢
    exact staged_of_stageBytes hstg hfits
  have hcommit : commitResults i v = v.setResp b := by rw [c.response, commitCmd, hstaged]
  obtain ⟨hsucc, hsetup, htransport, htimer⟩ := k.commits hinit (hb ▸ hresp) (by rw [hcommit]) (by rw [hcommit])
  obtain ⟨hdev, -, -, hbusy, hpass, -⟩ := k.results
  obtain ⟨fdev, fprt, -⟩ := commitResults_writers i v
  refine ⟨hsucc, ?_, (fdev hload).trans hdev, (fprt hprt).trans hpass, hsetup, htransport, htimer⟩
  rw [hcommit, Descriptor.busyAfter, finishCommit_busyFlag, State.setResp_stgSr1v, hsr1]
  cases hread : row.readsSr1 with
  | false => exact hbusy
  | true =>
    obtain ⟨hn, h12⟩ : 0 < row.readLen ∧ row.slot.getD 0 = 12 := by simpa [Descriptor.readsSr1] using hread
    rw [← hstaged, staged_getD_zero v _ hn, h12]
    rfl

/-- A command whose micro-program is its transaction and `COMMIT` completes when its phases are answered (R120). -/
theorem CommandOf.completes (c : CommandOf i row [.commit]) (h : Ready s) (hb : b.length = row.readLen)
    (ht : s.transport = row.answers b ++ more) :
    ∃ t, Machine.exec i s = .next t ∧ Completed (encode i) (row.events b) b (row.busyAfter b s) more s t := by
  have hexec := c.exec h hb ht
  rw [runOps_idle rfl rfl] at hexec
  exact ⟨_, hexec, c.commits (along_transact row b more rfl) hb rfl rfl⟩

/-- A command that sleeps before its `COMMIT` completes when its phases are answered and the Timer reports enough time (R122). -/
theorem CommandOf.completes_after_sleep {us u : Nat} {later : List Nat} (c : CommandOf i row [.dly us, .commit]) (h : Ready s)
    (hb : b.length = row.readLen) (ht : s.transport = row.answers b ++ more) (htimer : s.timer = u :: later) (hu : us ≤ u) :
    ∃ t, Machine.exec i s = .next t ∧
      Completed (encode i) (row.events b ++ [.dly us]) b (row.busyAfter b s) more { s with timer := later } t := by
  have hexec := c.exec h hb ht
  have hslept := microStep_dly_elapsed (cr := commitResults i) (s := row.transact b more (accept (encode i) s)) hu htimer
  rw [runOps_active hslept rfl, runOps_idle rfl rfl] at hexec
  have along := (along_transact row b more (u := accept (encode i) s) rfl).slept us later
  exact ⟨_, hexec, c.commits (s := { s with timer := later }) along hb rfl rfl⟩

end Command

/-- Settles O22: a command that reads nothing. -/
theorem enableResetCompletes : Obligations.EnableResetCompletes := fun _ _ h ht =>
  CommandOf.completes (i := .cmdEnableReset) (row := rowEnableReset) ⟨rfl, rfl, rfl, rfl⟩ h (b := []) rfl ht

/-- Settles O23: a command that reads nothing and sleeps before its `COMMIT`. -/
theorem resetCompletesAfterTheSettleDelay : Obligations.ResetCompletesAfterTheSettleDelay := fun _ _ _ _ h ht htimer hu =>
  CommandOf.completes_after_sleep (i := .cmdReset) (row := rowReset) ⟨rfl, rfl, rfl, rfl⟩ h (b := []) rfl ht htimer hu

/-- Settles O24: a command with three dummy bytes that reads one. -/
theorem releasePdIdCommitsItsByte : Obligations.ReleasePdIdCommitsItsByte := fun _ b _ h ht =>
  CommandOf.completes (i := .cmdReleasePdId) (row := rowReleasePdId) ⟨rfl, rfl, rfl, rfl⟩ h (b := [b]) rfl ht

/-- Settles O25: a command that reads three bytes. -/
theorem readJedecIdCommitsThreeBytes : Obligations.ReadJedecIdCommitsThreeBytes := fun _ b0 b1 b2 _ h ht =>
  CommandOf.completes (i := .cmdReadJedecId) (row := rowReadJedecId) ⟨rfl, rfl, rfl, rfl⟩ h (b := [b0, b1, b2]) rfl ht

/-- Settles O26: a command with four dummy bytes that reads eight. -/
theorem readUniqueIdCommitsEightBytes : Obligations.ReadUniqueIdCommitsEightBytes := fun _ _ _ h hd ht =>
  CommandOf.completes (i := .cmdReadUniqueId) (row := rowReadUniqueId) ⟨rfl, rfl, rfl, rfl⟩ h hd ht

/-- Settles O27: the one command whose row reads SR1, so BUSY_FLAG is its byte's busy bit. -/
theorem readSr1CommitsTheByteAndTheBusyBit : Obligations.ReadSr1CommitsTheByteAndTheBusyBit := fun _ b _ h ht =>
  CommandOf.completes (i := .cmdReadSr1) (row := rowReadSr1) ⟨rfl, rfl, rfl, rfl⟩ h (b := [b]) rfl ht

/-- Settles O28: the row's slot is SR2's, so BUSY_FLAG stays. -/
theorem readSr2LeavesTheBusyFlag : Obligations.ReadSr2LeavesTheBusyFlag := fun _ b _ h ht =>
  CommandOf.completes (i := .cmdReadSr2) (row := rowReadSr2) ⟨rfl, rfl, rfl, rfl⟩ h (b := [b]) rfl ht

/-- Settles O29: the row's slot is SR3's, so BUSY_FLAG stays. -/
theorem readSr3LeavesTheBusyFlag : Obligations.ReadSr3LeavesTheBusyFlag := fun _ b _ h ht =>
  CommandOf.completes (i := .cmdReadSr3) (row := rowReadSr3) ⟨rfl, rfl, rfl, rfl⟩ h (b := [b]) rfl ht

end Sys2Proof.Machine
end

section
/-! SUPPORT. The frames of requests: what the micro-ops of a request leave unchanged, submitted or resumed; and the micro-programs
written out. -/

namespace Sys2Proof.Machine

/-! ### Micro-ops that leave a register alone -/

/-- Every micro-op of a micro-program stands somewhere in it. -/
theorem exists_placed {i : Instr} {op : MicroOp} (h : op ∈ microProgram i) : ∃ before, placed i before op = true := by
  obtain ⟨k, hk, rfl⟩ := List.mem_iff_getElem.1 h
  exact ⟨_, microProgram_placed i k hk⟩

/-- Only INIT sets the bus format (R27, R140). -/
theorem placed_fmt {i : Instr} {before : List MicroOp} (h : placed i before .fmt = true) : i = .seqInit := by
  simp [placed] at h; tauto

/-- The requests that read SR1 (R32). -/
def ReadsSr1 (i : Instr) : Prop := i = .cmdReadSr1 ∨ i = .seqIsBusy ∨ i = .seqLoadDeviceInfo ∨ i = .seqPostResetTest

section MicroStep
variable {i : Instr} {op : MicroOp} {s t : State}

/-- A micro-op of a request other than INIT leaves the setup (R21, R26 to R28). -/
theorem microStep_sameSetup (hi : i ≠ .seqInit) (hop : op ∈ microProgram i)
    (h : microStep (commitResults i) op s = some t) : SameSetup s t := by
  obtain ⟨before, hp⟩ := exists_placed hop
  obtain ⟨-, hsub, -, hresults, -, hpins, hfmt, -⟩ := microStep_frame h
  obtain ⟨hhold, hwp⟩ := hpins (fun p lvl e => hi (placed_set (e ▸ hp)).1)
    (fun ps e => hi (placed_init_of_moves hp (.inr ⟨ps, e⟩)))
  have hbus := hfmt (fun e => hi (placed_fmt (e ▸ hp)))
  by_cases hc : op = .commit
  · obtain ⟨-, -, hothers, -⟩ := commitResults_writers i s
    obtain ⟨fclk, fcfg⟩ := hothers hi
    obtain rfl := commit_of_step (hc ▸ h)
    exact ⟨fcfg, hhold, hwp, hbus, fclk, hsub⟩
  · obtain ⟨-, -, -, -, -, hclk, hcfg⟩ := hresults hc
    exact ⟨hcfg, hhold, hwp, hbus, hclk, hsub⟩

/-- A micro-op of a request other than LOAD_DEVICE_INFO leaves DEVINFO (R30). -/
theorem microStep_devInfo (hi : i ≠ .seqLoadDeviceInfo) (h : microStep (commitResults i) op s = some t) :
    t.devInfo = s.devInfo := by
  by_cases hc : op = .commit
  · obtain rfl := commit_of_step (hc ▸ h)
    exact (commitResults_writers i s).1 hi
  · obtain ⟨-, -, -, hresults, -⟩ := microStep_frame h
    exact (hresults hc).1

/-- A micro-op of a request other than POST_RESET_TEST leaves PRT_PASS (R33). -/
theorem microStep_prtPass (hi : i ≠ .seqPostResetTest) (h : microStep (commitResults i) op s = some t) :
    t.prtPass = s.prtPass := by
  obtain ⟨-, hcommit, -⟩ := commitResults_writers i s
  by_cases hc : op = .commit
  · obtain rfl := commit_of_step (hc ▸ h)
    exact hcommit hi
  · obtain ⟨-, -, -, hresults, -⟩ := microStep_frame h
    obtain ⟨-, -, -, -, hprt, -⟩ := hresults hc
    exact hprt

/-- A micro-op of a request that does not sleep consumes no answer of the Timer (R111). -/
theorem microStep_timer (hi : ¬(i = .cmdReset ∨ i = .seqResetSeq)) (hop : op ∈ microProgram i)
    (h : microStep (commitResults i) op s = some t) : t.timer = s.timer := by
  obtain ⟨-, -, -, -, htimer, -⟩ := microStep_frame h
  exact htimer fun us e => hi (dly_mem_microProgram (e ▸ hop)).2

/-- With no SR1 byte staged, a micro-op of a request that does not read SR1 stages none and leaves BUSY_FLAG (R29, R32, R108). -/
theorem microStep_busyFlag (hi : ¬ReadsSr1 i) (hop : op ∈ microProgram i) (h : microStep (commitResults i) op s = some t)
    (hv : s.stgSr1v = false) : t.stgSr1v = false ∧ t.busyFlag = s.busyFlag := by
  refine ⟨?_, ?_⟩
  · rcases microStep_stgSr1v h with hsame | ⟨⟨n, rfl⟩, -⟩
    · exact hsame.trans hv
    · exact absurd (rd12_mem_microProgram hop) hi
  by_cases hc : op = .commit
  · obtain ⟨-, -, -, -, -, -, -, -, -, fsr1v, -, -, -, -, fbusy, -⟩ := commitResults_frame i s
    obtain rfl := commit_of_step (hc ▸ h)
    rw [finishCommit_busyFlag, fsr1v, hv]
    exact fbusy
  · obtain ⟨-, -, -, hresults, -⟩ := microStep_frame h
    obtain ⟨-, -, -, hbusy, -⟩ := hresults hc
    exact hbusy

/-- The run of such a request's micro-ops, begun with no SR1 byte staged, leaves BUSY_FLAG. -/
theorem runOps_busyFlag {ops : List MicroOp} (hi : ¬ReadsSr1 i) (hops : ∀ o ∈ ops, o ∈ microProgram i)
    (ha : s.seqState = .active) (hv : s.stgSr1v = false) : (runOps (commitResults i) ops s).busyFlag = s.busyFlag := by
  have hrun := runOps_keeps (cr := commitResults i) (ops := ops) (P := fun u => u.stgSr1v = false ∧ u.busyFlag = s.busyFlag)
    (fun o ho u v _ hu hm => (microStep_busyFlag hi (hops o ho) hm hu.1).imp_right (·.trans hu.2)) ha ⟨hv, rfl⟩
  exact hrun.2

end MicroStep

/-! ### Requests that leave a register alone -/

/-- The setup stays the same over two steps that leave it. -/
theorem SameSetup.trans {s t u : State} (h : SameSetup s t) (k : SameSetup t u) : SameSetup s u := by
  simp_all [SameSetup]

section Request
variable {i : Instr} {s t : State} (h : exec i s = .next t ∨ Resumes i s t)
include h

/-- A property the acceptance or rejection of a request meets and its micro-ops keep holds after it, submitted or resumed. -/
theorem request_keeps {P : State → Prop} (h0 : P s) (hr : P (reject errNotInitialized s)) (ha : P (accept (encode i) s))
    (hstep : ∀ op ∈ microProgram i, ∀ u v, P u → microStep (commitResults i) op u = some v → P v) : P t :=
  h.elim (fun he => exec_keeps he h0 hr ha fun op ho u v _ => hstep op ho u v)
    (fun hres => hres.keeps h0 fun op ho u v _ => hstep op ho u v)

/-- A request other than INIT leaves the setup. -/
theorem request_sameSetup (hi : i ≠ .seqInit) : SameSetup s t :=
  request_keeps (P := SameSetup s) h ⟨rfl, rfl, rfl, rfl, rfl, rfl⟩ ⟨rfl, rfl, rfl, rfl, rfl, rfl⟩
    ⟨rfl, rfl, rfl, rfl, rfl, rfl⟩ fun _ ho _ _ hu hm => hu.trans (microStep_sameSetup hi ho hm)

/-- A request other than LOAD_DEVICE_INFO leaves DEVINFO. -/
theorem request_devInfo (hi : i ≠ .seqLoadDeviceInfo) : t.devInfo = s.devInfo :=
  request_keeps (P := fun u => u.devInfo = s.devInfo) h rfl rfl rfl fun _ _ _ _ hu hm => (microStep_devInfo hi hm).trans hu

/-- A request other than POST_RESET_TEST leaves PRT_PASS. -/
theorem request_prtPass (hi : i ≠ .seqPostResetTest) : t.prtPass = s.prtPass :=
  request_keeps (P := fun u => u.prtPass = s.prtPass) h rfl rfl rfl fun _ _ _ _ hu hm => (microStep_prtPass hi hm).trans hu

/-- A request that does not sleep leaves the Timer's answers. -/
theorem request_timer (hi : ¬(i = .cmdReset ∨ i = .seqResetSeq)) : t.timer = s.timer :=
  request_keeps (P := fun u => u.timer = s.timer) h rfl rfl rfl fun _ ho _ _ hu hm => (microStep_timer hi ho hm).trans hu

/-- A request that does not read SR1 leaves BUSY_FLAG: no SR1 byte is staged at its acceptance, nor where it resumes. -/
theorem request_busyFlag (hi : ¬ReadsSr1 i) : t.busyFlag = s.busyFlag := by
  rcases h with he | hres
  · rcases exec_cases he with ⟨-, rfl⟩ | ⟨-, -, -, rfl⟩ | ⟨-, -, rfl⟩
    · rfl
    · rfl
    · exact runOps_busyFlag (s := accept (encode i) s) hi (fun _ ho => ho) rfl rfl
  · obtain ⟨hat, rfl⟩ := hres.eq
    obtain ⟨hinv, -⟩ := hres
    have hv : s.stgSr1v = false := Bool.eq_false_iff.2 fun hv => hi (hinv.sr1_requests hat hv)
    exact runOps_busyFlag hi (fun _ ho => List.mem_of_mem_drop ho) hat.act hv

end Request

/-! ### The result space under a frame -/

/-- The RS bytes of DEVINFO stay with it (R36). -/
theorem rsByte_of_devInfo {s t : State} (h : t.devInfo = s.devInfo) {a : Nat} (ha : a < 0x10) : t.rsByte a = s.rsByte a := by
  rw [rsByte_devInfo t a ha, rsByte_devInfo s a ha]
  simp only [h]

/-- The RS bytes past ERR_PHASE stay with CLK_ACTUAL (R36). -/
theorem rsByte_of_clkActual {s t : State} (h : t.clkActual = s.clkActual) {a : Nat} (ha : 0x1D ≤ a) :
    t.rsByte a = s.rsByte a := by
  by_cases hlow : a ≤ 0x1F
  · rw [rsByte_reserved_low t a ha hlow, rsByte_reserved_low s a ha hlow]
  by_cases hhigh : 0x24 ≤ a
  · rw [rsByte_reserved_high t a hhigh, rsByte_reserved_high s a hhigh]
  obtain rfl | rfl | rfl | rfl : a = 0x20 ∨ a = 0x21 ∨ a = 0x22 ∨ a = 0x23 := by omega
  all_goals simp [State.rsByte, h]

/-- Settles O40: a CMD request is none of those that write the setup, DEVINFO or PRT_PASS, and of the CMD requests only READ_SR1
reads SR1 and only RESET sleeps. -/
theorem commandFrame : Obligations.CommandFrame := by
  intro i s t hcmd h
  obtain ⟨hinit, hreset, hload, hbusy, hprt⟩ := ne_seq_of_isCmd hcmd
  have hsetup := request_sameSetup h hinit
  have hdev := request_devInfo h hload
  refine ⟨hsetup, hdev, request_prtPass h hprt, fun hsr1 => request_busyFlag h (by simp [ReadsSr1, hsr1, hbusy, hload, hprt]),
    fun hr => request_timer h (by simp [hr, hreset]), fun a ha => ?_⟩
  obtain ⟨-, -, -, -, hclk, -⟩ := hsetup
  exact ha.elim (rsByte_of_devInfo hdev) (rsByte_of_clkActual hclk)

/-- Settles O21: each micro-program unfolds to the written list. -/
theorem microProgramsAreTheSpecs : Obligations.MicroProgramsAreTheSpecs :=
  ⟨rfl, rfl, rfl, rfl, rfl, rfl, rfl, rfl, rfl, rfl, rfl, rfl, rfl⟩

end Sys2Proof.Machine
end

section
/-! SUPPORT. What the SEQ requests leave unchanged and what they never do, submitted or resumed: their frames, the committed
DEVICE_ID, and INIT's events. -/

namespace Sys2Proof.Machine

/-! ### Frames of the SEQ requests -/

section Request
variable {i : Instr} {s t : State} (h : exec i s = .next t ∨ Resumes i s t)
include h

/-- A request leaves the Host's pending words. -/
theorem request_submissions : t.submissions = s.submissions :=
  request_keeps (P := fun u => u.submissions = s.submissions) h rfl rfl rfl fun _ _ _ _ hu hm => by
    obtain ⟨-, hsub, -⟩ := microStep_frame hm
    exact hsub.trans hu

/-- A request other than INIT leaves every RS byte past ERR_PHASE (R36). -/
theorem request_rsByte_high (hi : i ≠ .seqInit) {a : Nat} (ha : 0x1D ≤ a) : t.rsByte a = s.rsByte a := by
  obtain ⟨-, -, -, -, hclk, -⟩ := request_sameSetup h hi
  exact rsByte_of_clkActual hclk ha

/-- A request other than INIT and LOAD_DEVICE_INFO leaves every RS byte outside RESP, RESP_LEN, FLAGS and ERR_* (R36). -/
theorem request_rsByte (hi : i ≠ .seqInit) (hl : i ≠ .seqLoadDeviceInfo) {a : Nat} (ha : a < 0x10 ∨ 0x1D ≤ a) :
    t.rsByte a = s.rsByte a :=
  ha.elim (rsByte_of_devInfo (request_devInfo h hl)) (request_rsByte_high h hi)

end Request

/-- Settles O41: neither request writes the setup, DEVINFO or PRT_PASS; RESET_SEQ reads no SR1 and IS_BUSY does not sleep. -/
theorem resetSeqAndIsBusyFrame : Obligations.ResetSeqAndIsBusyFrame := by
  intro i s t hi h
  have hinit : i ≠ .seqInit := by rcases hi with rfl | rfl <;> decide
  have hload : i ≠ .seqLoadDeviceInfo := by rcases hi with rfl | rfl <;> decide
  have hprt : i ≠ .seqPostResetTest := by rcases hi with rfl | rfl <;> decide
  exact ⟨request_sameSetup h hinit, request_devInfo h hload, request_prtPass h hprt,
    fun hreset => request_busyFlag h (by simp [ReadsSr1, hreset]), fun hbusy => request_timer h (by simp [hbusy]),
    fun _ => request_rsByte h hinit hload⟩

/-- Settles O42: LOAD_DEVICE_INFO writes neither the setup nor PRT_PASS and does not sleep. -/
theorem loadDeviceInfoFrame : Obligations.LoadDeviceInfoFrame := fun _ _ h =>
  ⟨request_sameSetup h (by decide), request_prtPass h (by decide), request_timer h (by decide),
    fun _ => request_rsByte_high h (by decide)⟩

/-- Settles O43: POST_RESET_TEST writes neither the setup nor DEVINFO and does not sleep. -/
theorem postResetTestFrame : Obligations.PostResetTestFrame := fun _ _ h =>
  ⟨request_sameSetup h (by decide), request_devInfo h (by decide), request_timer h (by decide),
    fun _ => request_rsByte h (by decide) (by decide)⟩

/-- Settles O44: INIT writes neither DEVINFO nor PRT_PASS, reads no SR1 and does not sleep; the other RS bytes are DEVINFO's and
the reserved ones. -/
theorem initFrame : Obligations.InitFrame := by
  intro s t h
  have hdev : t.devInfo = s.devInfo := request_devInfo h (by decide)
  refine ⟨hdev, request_busyFlag h (by simp [ReadsSr1]), request_prtPass h (by decide), request_submissions h,
    request_timer h (by decide), fun a ha => ?_⟩
  rcases ha with ha | ⟨hlow, hhigh⟩ | ha
  · exact rsByte_of_devInfo hdev ha
  · rw [rsByte_reserved_low t a hlow (by omega), rsByte_reserved_low s a hlow (by omega)]
  · rw [rsByte_reserved_high t a ha, rsByte_reserved_high s a ha]

/-! ### Resumed from any ACTIVE state -/

/-- A step of an ACTIVE block runs the rest of its request's micro-program, whether or not the state meets the invariant. -/
theorem step_resumed {i : Instr} {s t : State} (ha : s.seqState = .active) (hd : decode s.curReq = .request i)
    (h : step s = .next t) : t = runOps (commitResults i) ((microProgram i).drop s.upc.toNat) s := by
  rw [step_active ha, resume, hd, Host.Outcome.next.injEq] at h
  exact h.symm

/-! ### DEVICE_ID -/

/-- After a run of LOAD_DEVICE_INFO's micro-ops RESULT_VALID is 1 only if it was and the request is still running, or the request
has committed, with DEVICE_ID 0x00 (R144). -/
theorem runOps_deviceId {ops : List MicroOp} {s : State} (ha : s.seqState = .active)
    (hv : (runOps (commitResults .seqLoadDeviceInfo) ops s).resultValid = true) :
    ((runOps (commitResults .seqLoadDeviceInfo) ops s).seqState = .active ∧ s.resultValid = true) ∨
      (runOps (commitResults .seqLoadDeviceInfo) ops s).devInfo[1] = 0x00 := by
  refine runOps_keeps (cr := commitResults .seqLoadDeviceInfo) (ops := ops)
    (P := fun u => u.resultValid = true → (u.seqState = .active ∧ s.resultValid = true) ∨ u.devInfo[1] = 0x00)
    (fun op _ u v _ hu hm hvalid => ?_) ha (fun hs => .inl ⟨ha, hs⟩) hv
  by_cases hc : op = .commit
  · obtain rfl := commit_of_step (hc ▸ hm)
    exact .inr rfl
  obtain ⟨-, -, -, hresults, -, -, -, hends⟩ := microStep_frame hm
  rcases hends hc with ⟨hseq, -, hsame, -⟩ | ⟨-, -, -, hinvalid, -⟩
  · rw [hseq, (hresults hc).1]
    exact hu (hsame ▸ hvalid)
  · simp [hinvalid] at hvalid

/-- Settles O36: a submitted request starts with RESULT_VALID 0, and a resumed one that is IDLE again is no longer running. -/
theorem deviceIdIsAlwaysZero : Obligations.DeviceIdIsAlwaysZero := by
  refine ⟨fun s t hi h hv => ?_, fun s t ha hd h hi hv => ?_⟩
  · rcases exec_cases h with ⟨ha, -⟩ | ⟨-, -, -, rfl⟩ | ⟨-, -, rfl⟩
    · simp [hi] at ha
    · simp at hv
    · exact (runOps_deviceId rfl hv).resolve_left (by simp)
  · obtain rfl := step_resumed ha hd h
    exact (runOps_deviceId ha hv).resolve_left (by simp [hi])

/-! ### INIT's events -/

/-- An event outside every transaction and sleep (R141). -/
def Event.NoTransfer (e : Event) : Prop :=
  e ≠ .csl ∧ e ≠ .csh ∧ (∀ b, e ≠ .tx b) ∧ (∀ b, e ≠ .rx b) ∧ ∀ us, e ≠ .dly us

/-- `t` is `s` with some events appended, none of a transaction or a sleep. -/
def NoTransferBetween (s t : State) : Prop := ∃ es, t.trace = s.trace ++ es ∧ ∀ e ∈ es, e.NoTransfer

/-- Nothing is transferred where the trace stays the same. -/
theorem noTransferBetween_of_trace_eq {s t : State} (h : t.trace = s.trace) : NoTransferBetween s t := ⟨[], by simp [h], by simp⟩

/-- Two stretches without a transfer make one. -/
theorem NoTransferBetween.trans {s t u : State} (h : NoTransferBetween s t) (k : NoTransferBetween t u) :
    NoTransferBetween s u := by
  obtain ⟨es, hes, he⟩ := h
  obtain ⟨fs, hfs, hf⟩ := k
  refine ⟨es ++ fs, by rw [hfs, hes, List.append_assoc], fun e hmem => ?_⟩
  exact (List.mem_append.1 hmem).elim (he e) (hf e)

/-- What a micro-op of INIT emits is a configuration call or a pin level (R140, R141). -/
theorem did_noTransfer {op : MicroOp} {es : List Event} (hop : op ∈ microProgram .seqInit) (hd : op.did es) :
    ∀ e ∈ es, e.NoTransfer := by
  cases op with
  | csl | wr | rd | csh | dly => simp [microProgram, programSeqInit] at hop
  | cfg hz =>
    obtain ⟨a, rfl⟩ := hd
    simp [Event.NoTransfer]
  | fmt | pinfn | outen | set | commit =>
    cases hd
    simp [Event.NoTransfer]

/-- A micro-op of INIT transfers nothing: it commits, or it goes on, since INIT has no phase that could fault. -/
theorem microStep_noTransfer {op : MicroOp} {s t : State} (hop : op ∈ microProgram .seqInit) (ha : s.seqState = .active)
    (h : microStep (commitResults .seqInit) op s = some t) : NoTransferBetween s t := by
  by_cases hc : op = .commit
  · obtain rfl := commit_of_step (hc ▸ h)
    exact noTransferBetween_of_trace_eq rfl
  obtain ⟨-, -, -, -, -, -, -, hends⟩ := microStep_frame h
  have hact : t.seqState = .active := by
    rcases hends hc with ⟨hseq, -⟩ | ⟨⟨W, rfl⟩ | ⟨n, slot, rfl⟩, -⟩
    · exact hseq.trans ha
    · simp [microProgram, programSeqInit] at hop
    · simp [microProgram, programSeqInit] at hop
  obtain ⟨fs, htrace, hdid⟩ := microStep_did h hact
  exact ⟨fs, htrace, did_noTransfer hop hdid⟩

/-- Settles O37: a submission appends no event, and no micro-op of INIT transfers anything. -/
theorem initPerformsNoTransaction : Obligations.InitPerformsNoTransaction := by
  rintro s t (h | ⟨ha, hd, h⟩)
  · exact exec_keeps (P := NoTransferBetween s) h (noTransferBetween_of_trace_eq rfl) (noTransferBetween_of_trace_eq rfl)
      (noTransferBetween_of_trace_eq rfl) fun op ho u v hu hk hm => hk.trans (microStep_noTransfer ho hu hm)
  · obtain rfl := step_resumed ha hd h
    exact runOps_keeps (P := NoTransferBetween s)
      (fun op ho u v hu hk hm => hk.trans (microStep_noTransfer (List.mem_of_mem_drop ho) hu hm)) ha
      (noTransferBetween_of_trace_eq rfl)

end Sys2Proof.Machine
end

section
/-! SUPPORT. INIT: what each of its micro-ops does to the whole state, its run up to `COMMIT`, and its completion. -/

namespace Sys2Proof.Machine

/-! ### INIT's micro-ops -/

/-- `CFG` stores the rate `configure` answered and records it (R140). -/
theorem microStep_cfg_rate {cr : State → State} {hz a : Hz} {s : State} {rest : List TransportAnswer}
    (h : s.transport = .rate a :: rest) :
    microStep cr (.cfg hz) s = some ({ s with transport := rest, stgClk := a }.emit [.cfg (.configure hz a)]).advance := by
  simp [microStep, h]

/-- `OUTEN` writes the three manual pins and nothing else (R140). -/
theorem exists_driveOutputs_eq (n : Nat) (ps : List Pin) (s : State) :
    ∃ c h w, driveOutputs n ps s = { s with cs := c, hold := h, wp := w } := by
  induction ps generalizing s with
  | nil => exact ⟨_, _, _, rfl⟩
  | cons p ps ih =>
    rw [driveOutputs]
    split
    · obtain ⟨c, h, w, heq⟩ := ih (s.setLevel p (if Config.freePinHigh n p then .high else .low))
      rw [heq]
      cases p <;> exact ⟨_, _, _, rfl⟩
    · exact ih s

/-- `OUTEN` leaves a manual pin it names driven, at its level if it had one (R140). -/
theorem driveOutputs_driven {n : Nat} {ps : List Pin} {q : Pin} (s : State) (hq : q ∈ ps) (hm : q.manual = true) :
    (s.level q ≠ .undriven → (driveOutputs n ps s).level q = s.level q) ∧ (driveOutputs n ps s).level q ≠ .undriven := by
  rw [driveOutputs_level]
  by_cases hu : s.level q = .undriven
  · cases hf : Config.freePinHigh n q <;> simp [hq, hm, hu]
  · simp [hu]

/-- `OUTEN` as a whole: it writes the pins, draws from the free values and records its set (R140). -/
theorem microStep_outen {cr : State → State} {ps : List Pin} {s : State} {c h w : Level}
    (hpins : driveOutputs s.freeCount ps s = { s with cs := c, hold := h, wp := w }) :
    microStep cr (.outen ps) s =
      some ({ s with cs := c, hold := h, wp := w, freeCount := s.freeCount + 1 }.emit [.cfg (.configureAsOutput ps)]).advance := by
  rw [microStep, hpins]

/-- Settles O19: `OUTEN` by what it does to the pins, each other micro-op by its equation. -/
theorem configurationMicroOps : Obligations.ConfigurationMicroOps := by
  intro cr s
  refine ⟨fun hz a rest h => microStep_cfg_rate h, rfl, fun p => rfl, ?_, fun lvl => rfl, fun lvl => rfl, fun lvl => rfl⟩
  obtain ⟨c, h, w, hpins⟩ := exists_driveOutputs_eq s.freeCount [.cs, .hold, .wp] s
  have driven (q : Pin) := driveOutputs_driven (n := s.freeCount) (ps := [.cs, .hold, .wp]) (q := q) s
  rw [hpins] at driven
  obtain ⟨csKept, csDriven⟩ := driven .cs (by decide) rfl
  obtain ⟨holdKept, holdDriven⟩ := driven .hold (by decide) rfl
  obtain ⟨wpKept, wpDriven⟩ := driven .wp (by decide) rfl
  exact ⟨_, microStep_outen hpins, rfl, csKept, holdKept, wpKept, csDriven, holdDriven, wpDriven⟩

/-! ### INIT's run -/

/-- The events of an INIT whose `configure` answered the rate `a` (R140). -/
def initEvents (a : Hz) : List Event :=
  [.cfg (.configure clkTargetHz a), .cfg .setFormat, .cfg (.assignBusFunction .mosi), .cfg (.assignBusFunction .sck),
    .cfg (.assignBusFunction .miso), .cfg (.configureAsOutput [.cs, .hold, .wp]), .pin .cs .high, .pin .hold .high,
    .pin .wp .high]

/-- `u` where INIT is about to run `OUTEN`, `configure` answered with the rate `a` and the answers `more` left (R140). -/
def State.assigned (a : Hz) (more : List TransportAnswer) (u : State) : State :=
  { u with
    transport := more, stgClk := a, busFmt := busFormat, upc := u.upc + 5, trace := u.trace ++ (initEvents a).take 5 }

/-- `u` where INIT is about to `COMMIT`: whatever levels `OUTEN` left, the `SET`s have driven the pins HIGH (R140). -/
def State.configured (a : Hz) (more : List TransportAnswer) (u : State) : State :=
  { u with
    transport := more, stgClk := a, busFmt := busFormat, cs := .high, hold := .high, wp := .high, upc := u.upc + 9
    freeCount := u.freeCount + 1, trace := u.trace ++ initEvents a }

/-- INIT's micro-ops lead to its `COMMIT` once `configure` has answered. -/
theorem runOps_init {cr : State → State} {u : State} {a : Hz} {more : List TransportAnswer} (ha : u.seqState = .active)
    (ht : u.transport = .rate a :: more) :
    runOps cr (microProgram .seqInit) u = finishCommit (cr (u.configured a more)) := by
  obtain ⟨c, h, w, hpins⟩ := exists_driveOutputs_eq u.freeCount [.cs, .hold, .wp] (u.assigned a more)
  calc runOps cr (microProgram .seqInit) u
      = runOps cr [.outen [.cs, .hold, .wp], .set .cs .high, .set .hold .high, .set .wp .high, .commit] (u.assigned a more) := by
        simp [microProgram, programSeqInit, runOps, microStep, State.emit, State.advance, State.assigned, initEvents,
          BitVec.add_assoc, ha, ht]
    _ = runOps cr [.set .cs .high, .set .hold .high, .set .wp .high, .commit] _ := runOps_active (microStep_outen hpins) ha
    _ = finishCommit (cr (u.configured a more)) := by
        simp [runOps, microStep, State.emit, State.advance, State.setLevel, State.assigned, State.configured, initEvents,
          BitVec.add_assoc, ha]

/-- Settles O30: INIT is accepted in either configuration state, runs to its `COMMIT`, and reads no SR1 byte. -/
theorem initConfiguresTheBlock : Obligations.InitConfiguresTheBlock := by
  intro s a rest hi ht
  refine ⟨_, exec_accepted hi (.inr rfl), ?_⟩
  rw [runOps_init (u := accept (encode .seqInit) s) (more := rest) rfl ht]
  exact ⟨⟨rfl, rfl, rfl, rfl, rfl, rfl, rfl, rfl, rfl, rfl⟩, rfl, rfl, rfl, rfl, rfl, rfl, rfl, rfl, rfl, rfl, rfl⟩

end Sys2Proof.Machine
end

section
/-! SUPPORT. Sequences of answered transactions: the state they lead to, what is then staged, and the completion of the SEQ requests. -/

namespace Sys2Proof.Machine

/-! ### Several answered transactions -/

/-- `u` after the transactions of the rows in `l`, each answered with its bytes, leaving the answers `more` (R101). -/
def transacts : List (Descriptor × List Byte) → List TransportAnswer → State → State
  | [], _, u => u
  | (row, b) :: l, more, u => transacts l more (row.transact b (answersOf l ++ more) u)

section Transactions
variable {cr : State → State} {l : List (Descriptor × List Byte)} {u : State} {more : List TransportAnswer}
  (ha : u.seqState = .active) (hc : u.cs = .high) (hl : ∀ x ∈ l, x.2.length = x.1.readLen)
  (ht : u.transport = answersOf l ++ more)
include ha hc hl ht

/-- The micro-ops of answered transactions lead to the state after them. -/
theorem runOps_transacts (ops : List MicroOp) :
    runOps cr ((l.map Prod.fst).flatMap Descriptor.txn ++ ops) u = runOps cr ops (transacts l more u) := by
  induction l generalizing u with
  | nil => rfl
  | cons x l ih =>
    obtain ⟨row, b⟩ := x
    simp only [answersOf, List.flatMap_cons, List.append_assoc] at ht
    simp only [List.map_cons, List.flatMap_cons, List.append_assoc]
    rw [runOps_transact ha hc (hl (row, b) List.mem_cons_self) ht]
    exact ih ha rfl (fun x hx => hl x (List.mem_cons_of_mem _ hx)) rfl

/-- Answered transactions go along: the state after them is the one `runOps_txns` finds at the end of the empty rest. -/
theorem along_transacts : Along u (transacts l more u) .high (eventsOf l) (BitVec.ofNat 3 l.length) more := by
  obtain ⟨v, hrun, along⟩ := runOps_txns (cr := id) (ops := []) ha hc hl ht
  rw [runOps_transacts ha hc hl ht] at hrun
  obtain rfl : transacts l more u = v := hrun
  exact along

end Transactions

/-! ### What is staged -/

/-- Staging one list after another at the next slot is staging them as one (R53). -/
theorem stageBytes_append (stg : Vector Byte 15) (slot : Nat) (d e : List Byte) :
    stageBytes stg slot (d ++ e) = stageBytes (stageBytes stg slot d) (slot + d.length) e := by
  induction d generalizing stg slot with
  | nil => rfl
  | cons b d ih =>
    rw [List.cons_append, stageBytes, stageBytes, ih, List.length_cons, Nat.add_right_comm, Nat.add_assoc]

/-- A slot inside the staged bytes holds its byte (R53). -/
theorem stgAt_of_stageBytes {u : State} {stg : Vector Byte 15} {slot k : Nat} {b : List Byte} (h : u.stg = stageBytes stg slot b)
    (hk : slot ≤ k ∧ k < slot + b.length) (hfits : k < 15) : u.stgAt k = b.getD (k - slot) 0 := by
  simp only [State.stgAt_lt u k hfits, h, stageBytes_getElem _ _ _ _ hfits, if_pos hk]

/-! ### The SEQ requests complete -/

/-- `s` after the request `i` was submitted in it and ran its transactions, the rows of `l` with their bytes. -/
def afterTransactions (i : Instr) (l : List (Descriptor × List Byte)) (more : List TransportAnswer) (s : State) : State :=
  transacts l more (accept (encode i) s)

section Sequence
variable {i : Instr} {l : List (Descriptor × List Byte)} {tail : List MicroOp} {more : List TransportAnswer} {s v : State}
  {b : List Byte} (h : Ready s) (hl : ∀ x ∈ l, x.2.length = x.1.readLen) (ht : s.transport = answersOf l ++ more)
include h hl ht

/-- The transactions of a request submitted to a block at rest go along from its acceptance. -/
theorem along_afterTransactions :
    Along (accept (encode i) s) (afterTransactions i l more s) .high (eventsOf l) (BitVec.ofNat 3 l.length) more := by
  obtain ⟨-, -, hcs⟩ := h
  exact along_transacts (u := accept (encode i) s) rfl hcs hl ht

/-- A request submitted to a block at rest, its phases answered, runs its transactions and is left with `tail`. -/
theorem exec_transactions (hp : microProgram i = (l.map Prod.fst).flatMap Descriptor.txn ++ tail) :
    exec i s = .next (runOps (commitResults i) tail (afterTransactions i l more s)) := by
  obtain ⟨hidle, hready, hcs⟩ := h
  rw [exec_accepted hidle (.inl hready), hp, runOps_transacts (u := accept (encode i) s) rfl hcs hl ht]
  rfl

/-- A request whose micro-program is transactions and `COMMIT` completes when its phases are answered: with the response its
`commit_results` writes, and the setup and the unused answers as they were. -/
theorem exec_completes (hi : i ≠ .seqInit) (hp : microProgram i = (l.map Prod.fst).flatMap Descriptor.txn ++ [.commit])
    (hcommit : commitResults i (afterTransactions i l more s) = State.setResp b v) (hb : b.length ≤ 8) :
    ∃ t, t = finishCommit (commitResults i (afterTransactions i l more s)) ∧ exec i s = .next t ∧
      Succeeded (encode i) (eventsOf l) b s t ∧ SameSetup s t ∧ t.transport = more ∧ t.timer = s.timer := by
  have hexec := exec_transactions h hl ht hp
  rw [runOps_idle rfl rfl] at hexec
  exact ⟨_, rfl, hexec, (along_afterTransactions h hl ht).commits hi hb (by rw [hcommit]; rfl) (by rw [hcommit]; rfl)⟩

end Sequence

/-- A success is one with any other writing of its events. -/
theorem Succeeded.of_events_eq {w : ReqWord} {es fs : List Event} {b : List Byte} {s t : State} (h : Succeeded w es b s t)
    (he : es = fs) : Succeeded w fs b s t := he ▸ h

/-! ### RESET_SEQ -/

/-- The windows of RESET_SEQ (R142). -/
def resetSeqWindows : List (Descriptor × List Byte) := [(rowEnableReset, []), (rowReset, [])]

/-- Settles O31: the two transactions, then the sleep, then a `COMMIT` that writes no result but the empty response. -/
theorem resetSeqSendsThePairAndWaits : Obligations.ResetSeqSendsThePairAndWaits := by
  intro s rest us later h ht htimer hus
  have hl : ∀ x ∈ resetSeqWindows, x.2.length = x.1.readLen := by decide
  have hexec := exec_transactions (i := .seqResetSeq) (tail := [.dly resetSettleUs, .commit]) h hl ht rfl
  have hslept := microStep_dly_elapsed (cr := commitResults .seqResetSeq) (us := resetSettleUs)
    (s := afterTransactions .seqResetSeq resetSeqWindows rest s) hus htimer
  rw [runOps_active hslept rfl, runOps_idle rfl rfl] at hexec
  obtain ⟨hsucc, hsetup, htransport, hlater⟩ :=
    ((along_afterTransactions (i := .seqResetSeq) h hl ht).slept resetSettleUs later).commits
      (i := .seqResetSeq) (s := { s with timer := later }) (b := []) (by decide) (by decide) rfl rfl
  exact ⟨_, hexec, hsucc, rfl, rfl, rfl, rfl, hsetup, htransport, hlater⟩

/-! ### IS_BUSY -/

/-- Settles O33: one SR1 transaction, whose byte `COMMIT` puts in the response and in BUSY_FLAG. -/
theorem isBusyReportsBitZeroOfItsOwnRead : Obligations.IsBusyReportsBitZeroOfItsOwnRead := by
  intro s b rest h ht
  have hsr1 : (afterTransactions .seqIsBusy [(rowReadSr1, [b])] rest s).stgAt 12 = b :=
    stgAt_of_stageBytes (slot := 12) (b := [b]) rfl (by simp) (by decide)
  obtain ⟨t, rfl, hexec, hsucc, hsetup, htransport, htimer⟩ :=
    exec_completes (i := .seqIsBusy) (l := [(rowReadSr1, [b])]) h (List.forall_mem_singleton.2 rfl) ht (by decide) rfl rfl
      (by simp)
  rw [hsr1] at hsucc
  exact ⟨_, hexec, hsucc, congrArg busyBit hsr1, rfl, rfl, hsetup, htransport, htimer⟩

/-! ### LOAD_DEVICE_INFO -/

section LoadDeviceInfo
variable (m j0 j1 j2 r1 r2 r3 : Byte) (uid : List Byte)

/-- The windows of LOAD_DEVICE_INFO with the bytes they read (R143). -/
def loadDeviceInfoWindows : List (Descriptor × List Byte) :=
  [(rowReleasePdId, [m]), (rowReadJedecId, [j0, j1, j2]), (rowReadUniqueId, uid), (rowReadSr1, [r1]), (rowReadSr2, [r2]),
    (rowReadSr3, [r3])]

/-- The fifteen bytes LOAD_DEVICE_INFO reads, in arrival order (R143). -/
def loadDeviceInfoBytes : List Byte := m :: [j0, j1, j2] ++ uid ++ [r1, r2, r3]

variable {uid} (huid : uid.length = 8) (more : List TransportAnswer) (s : State)
include huid

/-- The transactions of LOAD_DEVICE_INFO fill the staging buffer in arrival order (R53). -/
theorem loadDeviceInfo_staged :
    (afterTransactions .seqLoadDeviceInfo (loadDeviceInfoWindows m j0 j1 j2 r1 r2 r3 uid) more s).staged 0 15 =
      loadDeviceInfoBytes m j0 j1 j2 r1 r2 r3 uid := by
  have hlen : (loadDeviceInfoBytes m j0 j1 j2 r1 r2 r3 uid).length = 15 := by simp [loadDeviceInfoBytes, huid]
  rw [← hlen]
  refine staged_of_stageBytes (stg := freshStg s.freeCount) ?_ (by omega)
  simp only [loadDeviceInfoBytes, stageBytes_append, List.length_append, huid]
  rfl

/-- The thirteenth of them is the SR1 byte. -/
theorem loadDeviceInfo_sr1 :
    (afterTransactions .seqLoadDeviceInfo (loadDeviceInfoWindows m j0 j1 j2 r1 r2 r3 uid) more s).stgAt 12 = r1 := by
  have hread := congrArg (·.getD 12 0x00) (loadDeviceInfo_staged m j0 j1 j2 r1 r2 r3 huid more s)
  refine Eq.trans rfl (hread.trans ?_)
  simp [loadDeviceInfoBytes, huid]

end LoadDeviceInfo

/-- `COMMIT` of LOAD_DEVICE_INFO leaves the staged bytes in order in DEVINFO, the constant DEVICE_ID after the first (R143, R144). -/
theorem finishCommit_loadDeviceInfo_devInfo (v : State) :
    (finishCommit (commitResults .seqLoadDeviceInfo v)).devInfo.toList = v.stgAt 0 :: 0x00 :: v.staged 1 14 := rfl

/-- Settles O32: the six transactions fill the staging buffer in order, and `COMMIT` copies it around the constant DEVICE_ID. -/
theorem loadDeviceInfoCopiesTheBytesInOrder : Obligations.LoadDeviceInfoCopiesTheBytesInOrder := by
  intro s m j0 j1 j2 r1 r2 r3 uid rest h huid ht
  have hl : ∀ x ∈ loadDeviceInfoWindows m j0 j1 j2 r1 r2 r3 uid, x.2.length = x.1.readLen := by
    simp [loadDeviceInfoWindows, rowReleasePdId, rowReadJedecId, rowReadUniqueId, rowReadSr1, rowReadSr2, rowReadSr3, huid]
  obtain ⟨hfirst, hothers⟩ := List.cons.inj (loadDeviceInfo_staged m j0 j1 j2 r1 r2 r3 huid rest s)
  have hsr1 := loadDeviceInfo_sr1 m j0 j1 j2 r1 r2 r3 huid rest s
  obtain ⟨t, rfl, hexec, hsucc, hsetup, htransport, htimer⟩ :=
    exec_completes (i := .seqLoadDeviceInfo) h hl ht (by decide) rfl rfl (by decide)
  refine ⟨_, hexec, hsucc.of_events_eq ?_, ?_, congrArg busyBit hsr1, rfl, hsetup, htransport, htimer⟩
  · simp [eventsOf, loadDeviceInfoWindows, Descriptor.events, Descriptor.writePhase, rowReleasePdId, rowReadJedecId,
      rowReadUniqueId, rowReadSr1, rowReadSr2, rowReadSr3, dummy, List.replicate]
  · have hread := congrArg₂ (· :: 0x00 :: ·) hfirst hothers
    rw [finishCommit_loadDeviceInfo_devInfo]
    exact hread.trans (by simp)

/-! ### POST_RESET_TEST -/

section PostResetTest
variable (m j0 j1 j2 r1 : Byte)

/-- The windows of POST_RESET_TEST with the bytes they read (R147). -/
def postResetTestWindows : List (Descriptor × List Byte) :=
  [(rowReleasePdId, [m]), (rowReadJedecId, [j0, j1, j2]), (rowReadSr1, [r1])]

/-- The bytes POST_RESET_TEST has staged, each in the slot of its row (R29, R147). -/
theorem postResetTest_staged (more : List TransportAnswer) (s v : State)
    (hv : v = afterTransactions .seqPostResetTest (postResetTestWindows m j0 j1 j2 r1) more s) :
    v.stgAt 0 = m ∧ v.stgAt 1 = j0 ∧ v.stgAt 2 = j1 ∧ v.stgAt 3 = j2 ∧ v.stgAt 12 = r1 := by
  have hstg : v.stg = stageBytes (stageBytes (freshStg s.freeCount) 0 [m, j0, j1, j2]) 12 [r1] := by rw [hv]; rfl
  simp [State.stgAt_lt, hstg, stageBytes_getElem]

end PostResetTest

/-- `COMMIT` of POST_RESET_TEST leaves the comparison of the staged bytes in PRT_PASS (R147). -/
theorem finishCommit_postResetTest_prtPass (v : State) : (finishCommit (commitResults .seqPostResetTest v)).prtPass =
    identityMatches (v.stgAt 0) (v.stgAt 2) (v.stgAt 3) (v.stgAt 12) := rfl

/-- The comparison of POST_RESET_TEST, conjunct by conjunct (R147). -/
theorem identityMatches_iff (mfr memType cap sr1 : Byte) : identityMatches mfr memType cap sr1 = true ↔
    mfr = Config.expMfr ∧ memType = Config.expMemtype ∧ cap = Config.expCap ∧ sr1.getLsbD 0 = false := by
  simp [identityMatches, busyBit, and_assoc]

/-- Settles O34: `COMMIT` compares the staged bytes and puts them in the response. -/
theorem postResetTestComparesTheIdentity : Obligations.PostResetTestComparesTheIdentity := by
  intro s m j0 j1 j2 r1 rest h ht
  have hl : ∀ x ∈ postResetTestWindows m j0 j1 j2 r1, x.2.length = x.1.readLen := by
    simp [postResetTestWindows, rowReleasePdId, rowReadJedecId, rowReadSr1]
  obtain ⟨h0, h1, h2, h3, h12⟩ := postResetTest_staged m j0 j1 j2 r1 rest s _ rfl
  obtain ⟨t, rfl, hexec, hsucc, hsetup, htransport, htimer⟩ :=
    exec_completes (i := .seqPostResetTest) h hl ht (by decide) rfl rfl (by simp)
  rw [h0, h1, h2, h3, h12] at hsucc
  refine ⟨_, hexec, hsucc, ?_, congrArg busyBit h12, rfl, hsetup, htransport, htimer⟩
  rw [finishCommit_postResetTest_prtPass, h0, h2, h3, h12]
  exact identityMatches_iff m j1 j2 r1

/-- Settles O35: the request completes as ever, and its comparison is the one that fails. -/
theorem identityMismatchIsNotAnError : Obligations.IdentityMismatchIsNotAnError := by
  intro s m j0 j1 j2 r1 rest h ht hne
  obtain ⟨t, hexec, ⟨hidle, -, -, -, -, -, hvalid, hcode, -⟩, hpass, -⟩ :=
    postResetTestComparesTheIdentity s m j0 j1 j2 r1 rest h ht
  refine ⟨t, hexec, hidle, Bool.eq_false_iff.2 fun hp => ?_, hvalid, hcode⟩
  obtain ⟨hm, htype, hcap, hbusy⟩ := hpass.1 hp
  rcases hne with hne | hne | hne | hne
  · exact hne hm
  · exact hne htype
  · exact hne hcap
  · exact absurd (hbusy.symm.trans hne) (by decide)

end Sys2Proof.Machine
end

section
/-! SUPPORT. Submission: what the checks make of a word submitted while IDLE, and the step that runs it. -/

namespace Sys2Proof.Machine

/-! ### Rejection and acceptance -/

section Submission
variable {s : State} (hi : s.seqState = .idle)
include hi

/-- While IDLE every word has a submit step (R171). -/
theorem exists_submit (w : ReqWord) : ∃ t, submit w s = some t := by
  cases hd : decode w with
  | illegal why => exact ⟨_, submit_illegal hi hd⟩
  | request i => exact ⟨_, submit_request hi hd⟩

/-- A submitted request other than INIT is rejected before INIT (R172, R174). -/
theorem submit_before_init {w : ReqWord} {i : Instr} (hd : decode w = .request i) (hu : s.cfgState = .uninit) (hw : w ≠ initWord) :
    submit w s = some (reject errNotInitialized s) := by
  rw [submit_request hi hd, present_rejects hu hw]

/-- A submitted request is accepted by a READY block, and INIT by every block (R171, R172). -/
theorem submit_accepted {w : ReqWord} {i : Instr} (hd : decode w = .request i) (hr : s.cfgState = .ready ∨ w = initWord) :
    submit w s = some (accept w s) := by
  rw [submit_request hi hd, present_accepts hr]

/-- The meaning of a request other than INIT before INIT is its rejection (R174). -/
theorem exec_before_init {i : Instr} (hu : s.cfgState = .uninit) (hne : i ≠ .seqInit) :
    exec i s = .next (reject errNotInitialized s) := by
  rw [exec_eq, runRequest_idle hi, present_rejects hu (mt encode_eq_initWord.1 hne)]
  exact congrArg Host.Outcome.next (if_pos hi)

end Submission

/-- Settles O5: the two ways an IDLE block takes a word. -/
theorem stepRunsTheDecodedRequest : Obligations.StepRunsTheDecodedRequest := fun _ _ _ hi hs =>
  ⟨fun _ hd => step_request hi hs hd, fun _ hd => step_illegal hi hs hd⟩

/-- Settles O6: the placed word is the head of the queue and decodes to its request. -/
theorem fetchWordIsTheNextRequestRun : Obligations.FetchWordIsTheNextRequestRun := by
  intro s i
  have hd : decode (BitVec.ofNat 16 (encode i).toNat) = .request i := by
    rw [BitVec.ofNat_toNat, BitVec.setWidth_eq, decode_encode]
  exact step_request (s := s.withFetchWord 16 (encode i).toNat) rfl rfl hd

/-- Settles O7: the rejection of an illegal word, written out. -/
theorem illegalWordIsRejected : Obligations.IllegalWordIsRejected := fun _ _ _ hi hd => submit_illegal hi hd

/-- Settles O8: executed or submitted, the second check rejects every request but INIT. -/
theorem requestBeforeInitIsRejected : Obligations.RequestBeforeInitIsRejected := by
  refine fun s hi hu => ⟨fun i hne => ⟨exec_before_init hi hu hne, ?_⟩, _, ?_, accept_seqState s _, accept_curReq s _⟩
  · exact submit_before_init hi (decode_encode i) hu (mt encode_eq_initWord.1 hne)
  · exact submit_accepted hi (decode_encode .seqInit) (.inr rfl)

/-- Settles O9: each check's outcome, the earlier ones passed. -/
theorem submissionChecksRunInOrder : Obligations.SubmissionChecksRunInOrder := by
  refine fun s w hi => ⟨fun why hd => ?_, fun i hd hu hw => ?_, fun i hd hr => ?_⟩
  · exact ⟨_, submit_illegal hi hd, hi, reject_errCode s _⟩
  · exact ⟨_, submit_before_init hi hd hu hw, hi, reject_errCode s _⟩
  · exact ⟨_, submit_accepted hi hd hr, accept_seqState s w, accept_errCode s w⟩

/-- An acceptance leaves the results (R171). -/
theorem accept_sameResults (w : ReqWord) (s : State) : SameResults s (accept w s) := ⟨rfl, rfl, rfl, rfl, rfl, rfl, rfl⟩

/-- An acceptance leaves the setup and the Host's pending words (R171). -/
theorem accept_sameSetup (w : ReqWord) (s : State) : SameSetup s (accept w s) := ⟨rfl, rfl, rfl, rfl, rfl, rfl⟩

/-- Settles O10: no submission while ACTIVE, a rejection or an acceptance while IDLE, and what an acceptance writes. -/
theorem acceptanceStartsTheRequest : Obligations.AcceptanceStartsTheRequest := by
  refine ⟨fun s w ha => submit_active ha, fun s w hi => ?_, fun s w i hi hd hr => ?_⟩
  · obtain ⟨t, ht⟩ := exists_submit hi w
    obtain ⟨-, ⟨code, hcode, rfl⟩ | ⟨i, -, -, rfl⟩⟩ := submit_outcomes ht
    · exact ⟨_, ht, .inl ⟨code, hcode, rfl⟩⟩
    · exact ⟨_, ht, .inr ⟨accept_seqState s w, accept_curReq s w⟩⟩
  · exact ⟨_, submit_accepted hi hd hr, rfl, rfl, rfl, rfl, rfl, rfl, rfl, rfl, rfl, accept_sameResults w s,
      accept_sameSetup w s, rfl, rfl, rfl, rfl⟩

end Sys2Proof.Machine
end

section
/-! SUPPORT. Requests that do not succeed: results are written by a `COMMIT` alone, and a fault in any transaction aborts there. -/

namespace Sys2Proof.Machine

/-! ### No partial results -/

/-- The results of a state are its own. -/
theorem SameResults.refl (s : State) : SameResults s s := ⟨rfl, rfl, rfl, rfl, rfl, rfl, rfl⟩

/-- The results stay the same over two steps that leave them. -/
theorem SameResults.trans {s t u : State} (h : SameResults s t) (k : SameResults t u) : SameResults s u := by
  simp_all [SameResults]

/-- Since `s` no result was written, or a request has completed successfully (R176, R177). -/
def SameOrCompleted (s t : State) : Prop := SameResults s t ∨ (t.seqState = .idle ∧ t.resultValid = true)

/-- Where RESULT_VALID is 0 nothing has completed, so the results are the same. -/
theorem SameOrCompleted.same {s t : State} (h : SameOrCompleted s t) (hv : t.resultValid = false) : SameResults s t :=
  h.resolve_right fun ⟨_, hvalid⟩ => by simp [hv] at hvalid

/-- A micro-op of a running request leaves the results, or it is the `COMMIT`, which completes the request (R100, R108). -/
theorem SameOrCompleted.microStep {i : Instr} {op : MicroOp} {s u v : State} (h : SameOrCompleted s u) (ha : u.seqState = .active)
    (hm : Machine.microStep (commitResults i) op u = some v) : SameOrCompleted s v := by
  by_cases hc : op = .commit
  · obtain rfl := commit_of_step (hc ▸ hm)
    exact .inr ⟨finishCommit_seqState _, finishCommit_resultValid _⟩
  · have hsame : SameResults s u := h.resolve_right fun ⟨hidle, _⟩ => by simp [ha] at hidle
    obtain ⟨-, -, -, hresults, -⟩ := microStep_frame hm
    exact .inl (hsame.trans (hresults hc))

/-- A submitted request leaves the results, or completes. -/
theorem exec_sameOrCompleted {i : Instr} {s t : State} (h : exec i s = .next t) : SameOrCompleted s t :=
  exec_keeps (P := SameOrCompleted s) h (.inl (SameResults.refl s)) (.inl (SameResults.refl s))
    (.inl (accept_sameResults _ s)) fun _ _ _ _ ha hu hm => hu.microStep ha hm

/-- A resumed request leaves the results, or completes. -/
theorem resume_sameOrCompleted {s : State} (ha : s.seqState = .active) : SameOrCompleted s (resume s) := by
  have hs : SameOrCompleted s s := .inl (SameResults.refl s)
  unfold resume
  split
  · exact hs
  · exact runOps_keeps (P := SameOrCompleted s) (fun _ _ _ _ hu hk hm => hk.microStep hu hm) ha hs

/-- Settles O39: a submitted and a resumed request write no result without completing; a wait and a rejection write none. -/
theorem noPartialResults : Obligations.NoPartialResults := by
  refine ⟨fun i s t h hv => (exec_sameOrCompleted h).same hv, fun s t h hv => ?_⟩
  rcases step_cases h with ⟨ha, rfl⟩ | ⟨-, -, rfl⟩ | ⟨-, w, rest, -, ⟨why, -, rfl⟩ | ⟨i, -, he⟩⟩
  · exact (resume_sameOrCompleted ha).same hv
  · exact SameResults.refl _
  · exact SameResults.refl _
  · exact (exec_sameOrCompleted he).same hv

/-! ### Faults in a transaction -/

/-- No request has more than six transactions (R24, R74). -/
theorem transactions_length (i : Instr) : (transactions i).length ≤ 6 := by cases i <;> decide

/-- The transactions before one of a request are few enough for TXN_IDX to count them (R24). -/
theorem earlier_length_toNat {i : Instr} {earlier : List (Descriptor × List Byte)} {row : Descriptor} {later : List Descriptor}
    (h : transactions i = earlier.map Prod.fst ++ row :: later) : (BitVec.ofNat 3 earlier.length).toNat = earlier.length := by
  have hle := transactions_length i
  simp only [h, List.length_append, List.length_map, List.length_cons] at hle
  rw [BitVec.toNat_ofNat]
  omega

/-- A request with a transaction runs the transactions before it, and then that one (R101). -/
theorem microProgram_at_transaction {i : Instr} {before later : List Descriptor} {row : Descriptor}
    (h : transactions i = before ++ row :: later) :
    ∃ ops, microProgram i = before.flatMap Descriptor.txn ++ (row.txn ++ ops) := by
  have hi : i ≠ .seqInit := by
    rintro rfl
    simp [transactions] at h
  obtain ⟨tail, hp⟩ := microProgram_transactions i hi
  exact ⟨later.flatMap Descriptor.txn ++ tail, by simp [hp, h]⟩

section Along
variable {u v : State} {c : Level} {es : List Event} {n : BitVec 3} {more : List TransportAnswer} (k : Along u v c es n more)
include k

/-- Taking the Transport's next answer goes along. -/
theorem Along.answered (rest : List TransportAnswer) : Along u { v with transport := rest } c es n rest :=
  { k with transport := rfl }

/-- Recording events goes along. -/
theorem Along.emitted (fs : List Event) : Along u (v.emit fs) c (es ++ fs) n more :=
  { k with trace := by simp [k.trace] }

end Along

/-- A request aborted where it has gone along to: the fault record with the number of closed windows, and the results, the setup and
the unused answers as they were (R176). -/
theorem Along.aborts {w : ReqWord} {s v : State} {c : Level} {es : List Event} {n : BitVec 3} {more : List TransportAnswer}
    (k : Along (accept w s) v c es n more) (ph : Phase) :
    Aborted w (es ++ [.fault ph, .csh]) n.toNat ph s (abort ph v) ∧ SameResults s (abort ph v) ∧ SameSetup s (abort ph v) ∧
      (abort ph v).transport = more ∧ (abort ph v).timer = s.timer := by
  have htxn : (abort ph v).errTxn.toNat = n.toNat := by
    have := n.isLt
    simp [k.txnIdx]
    omega
  refine ⟨⟨rfl, k.cur, rfl, ?_, rfl, rfl, htxn, ?_⟩, k.results, k.setup, k.transport, k.timer⟩
  · simp [k.trace]
  · cases ph <;> rfl

section Fault
variable {i : Instr} {earlier : List (Descriptor × List Byte)} {row : Descriptor} {later : List Descriptor} {s : State}
  {more : List TransportAnswer} (h : Ready s) (htxns : transactions i = earlier.map Prod.fst ++ row :: later)
  (hl : ∀ x ∈ earlier, x.2.length = x.1.readLen) (ht : s.transport = answersOf earlier ++ more)
include h htxns hl ht

/-- A request submitted to a block at rest, its earlier transactions answered, opens the window of the next one and stands at its write
phase, with its read phase behind if its row reads (R101, R102). -/
theorem exec_opens_window :
    ∃ u ops, exec i s = .next (runOps (commitResults i)
        (.wr row.writePhase :: ((if row.readLen > 0 then [.rd row.readLen (row.slot.getD 0)] else []) ++ ops)) u) ∧
      Along (accept (encode i) s) u .low (eventsOf earlier ++ [.csl]) (BitVec.ofNat 3 earlier.length) more := by
  obtain ⟨ops, hp⟩ := microProgram_at_transaction htxns
  have hexec := exec_transactions h hl ht hp
  have hearlier := along_afterTransactions (i := i) h hl ht
  obtain ⟨u, hcsl, hopen⟩ := along_csl (cr := commitResults i) hearlier.act hearlier.cs
  refine ⟨u, .csh :: ops, ?_, ?_⟩
  · rw [hexec, Descriptor.txn, txn]
    simp only [List.append_assoc, List.cons_append, List.nil_append]
    rw [runOps_active hcsl hopen.act]
  · simpa [hearlier.transport] using hearlier.trans hopen

end Fault

/-- Settles O38: the request opens the window of the transaction, and the fault aborts it at the write or the read phase. -/
theorem faultInAnyTransactionAborts : Obligations.FaultInAnyTransactionAborts := by
  intro i earlier row later s rest h htxns hl
  have hcount := earlier_length_toNat htxns
  refine ⟨fun k hk ht => ?_, fun hn ht => ?_⟩
  · obtain ⟨u, ops, hexec, hopen⟩ := exec_opens_window h htxns hl ht
    rw [runOps_idle (microStep_wr_fault hk hopen.transport) rfl] at hexec
    obtain ⟨haborted, hframe⟩ := ((hopen.answered rest).emitted ((row.writePhase.take k).map .tx)).aborts .write
    rw [hcount] at haborted
    exact ⟨_, hexec, by simpa using haborted, hframe⟩
  · obtain ⟨u, ops, hexec, hopen⟩ := exec_opens_window h htxns hl ht
    obtain ⟨v, hwr, hsent⟩ := along_wr (cr := commitResults i) (W := row.writePhase) hopen.act hopen.transport
    rw [if_pos hn, List.cons_append, runOps_active hwr hsent.act, runOps_idle (microStep_rd_fault hsent.transport) rfl] at hexec
    obtain ⟨haborted, hframe⟩ := ((hopen.trans hsent).answered rest).aborts .read
    rw [add_zero, hcount] at haborted
    exact ⟨_, hexec, by simpa using haborted, hframe⟩

end Sys2Proof.Machine
end

section
/-! SUPPORT. The Host's words while the block waits or is ACTIVE, and the events every successful completion has behind it. -/

namespace Sys2Proof.Machine

/-! ### Waiting and holding -/

/-- While ACTIVE a presented request changes nothing (R171). -/
theorem exec_active {i : Instr} {s : State} (ha : s.seqState = .active) : exec i s = .next s := by
  rw [exec_eq, runRequest, ha]

/-- A resumption takes no word from the Host (R171). -/
theorem resume_submissions {s : State} (ha : s.seqState = .active) : (resume s).submissions = s.submissions := by
  unfold resume
  split
  · rfl
  · refine runOps_keeps (P := fun u => u.submissions = s.submissions) (fun _ _ _ _ _ hu hm => ?_) ha rfl
    obtain ⟨-, hsub, -⟩ := microStep_frame hm
    exact hsub.trans hu

/-- Settles O11: the waiting step, the held request, and the resumption, which leaves the Host's words. -/
theorem idleBlockAndHeldHostWait : Obligations.IdleBlockAndHeldHostWait := by
  refine ⟨fun s hi hs => ⟨step_idle_nil hi hs, agentStep_idle_nil hi hs⟩, fun s i ha => ⟨exec_active ha, fun t h => ?_⟩⟩
  rw [step_active ha, Host.Outcome.next.injEq] at h
  exact h ▸ resume_submissions ha

/-! ### The events of completed micro-ops -/

/-- The events of a list of micro-ops end with those of its last part (R62). -/
theorem Performed.of_append {before ops : List MicroOp} {es : List Event} (h : Performed (before ++ ops) es) :
    ∃ fs gs, es = fs ++ gs ∧ Performed ops gs := by
  induction before generalizing es with
  | nil => exact ⟨[], es, rfl, h⟩
  | cons op before ih =>
    obtain ⟨a, b, rfl, -, hb⟩ := h
    obtain ⟨fs, gs, rfl, hgs⟩ := ih hb
    exact ⟨a ++ fs, gs, (List.append_assoc a fs gs).symm, hgs⟩

/-- Since the trace was `pre`, the events of the micro-ops `ops` were appended to it, and nothing else (R62). -/
def PerformedSince (pre : List Event) (ops : List MicroOp) (s : State) : Prop :=
  ∃ es, s.trace = pre ++ es ∧ Performed ops es

/-- At its `COMMIT` a request has done every other micro-op (R100). -/
theorem At.done_at_commit {i : Instr} {k : Nat} {s : State} (hat : At i k s) (hc : (microProgram i)[k]'hat.lt = .commit) :
    s.done = (microProgram i).dropLast := by
  have hlast := (commit_iff_last i k hat.lt).1 hc
  rw [hat.done, List.dropLast_eq_take, ← hlast, Nat.add_sub_cancel]

/-- The request `i`, running since the trace was `pre`, has appended the events of the micro-ops done, or it has aborted, or it has
completed with the events of every micro-op before its `COMMIT` (R100, R108, R176). -/
def OnItsWay (i : Instr) (pre : List Event) (s : State) : Prop :=
  (s.resultValid = false ∧ (s.seqState = .active → PerformedSince pre s.done s)) ∨
    (s.seqState = .idle ∧ PerformedSince pre (microProgram i).dropLast s)

/-- A micro-op of the request keeps it so: it commits, goes on or aborts. -/
theorem OnItsWay.microStep {i : Instr} {k : Nat} {pre : List Event} {s t : State} (h : OnItsWay i pre s) (hat : At i k s)
    (hm : Machine.microStep (commitResults i) ((microProgram i)[k]'hat.lt) s = some t) : OnItsWay i pre t := by
  obtain ⟨hvalid, hperf⟩ := h.resolve_right fun ⟨hi, _⟩ => by simp [hat.act] at hi
  obtain ⟨es, htrace, hdone⟩ := hperf hat.act
  by_cases hc : (microProgram i)[k]'hat.lt = .commit
  · obtain ⟨-, -, -, -, -, -, -, -, -, -, ftrace, -⟩ := commitResults_frame i s
    obtain rfl := commit_of_step (hc ▸ hm)
    exact .inr ⟨rfl, es, ftrace.trans htrace, hat.done_at_commit hc ▸ hdone⟩
  · obtain ⟨-, -, -, -, -, -, -, hends⟩ := microStep_frame hm
    refine .inl ⟨?_, fun ha => ?_⟩
    · rcases hends hc with ⟨-, -, hsame, -⟩ | ⟨-, -, -, hinvalid, -⟩
      · exact hsame.trans hvalid
      · exact hinvalid
    · obtain ⟨-, -, hnext⟩ := hat.next hm ha
      obtain ⟨fs, hfs, hdid⟩ := microStep_did hm ha
      exact ⟨es ++ fs, by rw [hfs, htrace, List.append_assoc], hnext ▸ performed_snoc hdone hdid⟩

/-- A request that is valid after its run has appended the events of every micro-op before its `COMMIT`. -/
theorem At.runOps_performed {i : Instr} {k : Nat} {pre : List Event} {s : State} (hat : At i k s) (hs : s.resultValid = false)
    (hperf : PerformedSince pre s.done s)
    (hv : (runOps (commitResults i) ((microProgram i).drop k) s).resultValid = true) :
    PerformedSince pre (microProgram i).dropLast (runOps (commitResults i) ((microProgram i).drop k) s) := by
  have hrun : OnItsWay i pre (runOps (commitResults i) ((microProgram i).drop k) s) :=
    runOps_at (fun _ _ _ hat h hm => h.microStep hat hm) k s hat (.inl ⟨hs, fun _ => hperf⟩)
  exact (hrun.resolve_left fun ⟨hinvalid, _⟩ => by simp [hv] at hinvalid).2

/-- A submitted request that succeeds has appended the events of every micro-op before its `COMMIT`. -/
theorem exec_performed {i : Instr} {s t : State} (hi : s.seqState = .idle) (h : exec i s = .next t) (hv : t.resultValid = true) :
    PerformedSince s.trace (microProgram i).dropLast t := by
  rcases exec_cases h with ⟨ha, -⟩ | ⟨-, -, -, rfl⟩ | ⟨-, -, rfl⟩
  · simp [hi] at ha
  · simp at hv
  · have hat := accept_at i s
    exact hat.runOps_performed rfl ⟨[], by simp, by rw [hat.done]; rfl⟩ hv

/-- A resumed request that succeeds ends a trace with the events of every micro-op before its `COMMIT`: the invariant has those done
before the hold. -/
theorem Resumes.performed {i : Instr} {s t : State} (h : Resumes i s t) (hv : t.resultValid = true) :
    ∃ pre, PerformedSince pre (microProgram i).dropLast t := by
  obtain ⟨hat, rfl⟩ := h.eq
  obtain ⟨hinv, -⟩ := h
  obtain ⟨pre, es, htrace, hperf⟩ := hinv.performed hat.act
  exact ⟨pre, hat.runOps_performed (hinv.not_valid hat.act) ⟨es, htrace, hperf⟩ hv⟩

/-! ### The settle delay -/

/-- Before their `COMMIT` both resets send 0x99, close the window and sleep (R122, R142, R207). -/
theorem reset_microProgram_ends {i : Instr} (h : i = .cmdReset ∨ i = .seqResetSeq) :
    ∃ before, (microProgram i).dropLast = before ++ [.wr [0x99], .csh, .dly 30] := by
  rcases h with rfl | rfl
  · exact ⟨[.csl], rfl⟩
  · exact ⟨rowEnableReset.txn ++ [.csl], rfl⟩

/-- What these three micro-ops emit (R103, R105, R111). -/
theorem performed_send_and_settle {es : List Event} (h : Performed [.wr [0x99], .csh, .dly 30] es) :
    es = [.tx 0x99, .csh, .dly 30] := by
  obtain ⟨_, _, rfl, rfl, _, _, rfl, rfl, _, _, rfl, rfl, rfl⟩ := h
  rfl

/-- The events of a reset up to its `COMMIT` end with 0x99, the end of the window and the settle delay (R207). -/
theorem PerformedSince.settles {i : Instr} {pre : List Event} {s : State} (hi : i = .cmdReset ∨ i = .seqResetSeq)
    (h : PerformedSince pre (microProgram i).dropLast s) : ∃ es, s.trace = pre ++ es ++ [.tx 0x99, .csh, .dly 30] := by
  obtain ⟨before, hbefore⟩ := reset_microProgram_ends hi
  obtain ⟨es, htrace, hperf⟩ := h
  obtain ⟨fs, gs, rfl, hgs⟩ := (hbefore ▸ hperf).of_append
  exact ⟨fs, by rw [htrace, performed_send_and_settle hgs, List.append_assoc]⟩

/-- Settles O47: a request that succeeds has performed every micro-op before its `COMMIT`, and a reset's last three are these. -/
theorem settleDelayPrecedesCompletion : Obligations.SettleDelayPrecedesCompletion := by
  refine ⟨fun i s t hi hidle h hv => (exec_performed hidle h hv).settles hi, fun i s t hi h hv => ?_⟩
  obtain ⟨pre, hperf⟩ := h.performed hv
  obtain ⟨es, htrace⟩ := hperf.settles hi
  exact ⟨pre ++ es, htrace⟩

end Sys2Proof.Machine
end
